-- ==== Sys2Proof/Word.lean ====
section
/-! DEFINITION. The machine's plainest types: bytes, operation words, result codes, the write
cursor and the indices of the accumulation buffer. -/

namespace Sys2Proof

/-- Every data value the block handles is an 8-bit unsigned byte (00_scope.md R8). -/
abbrev Byte := BitVec 8

/-- One cycle's inputs written as one number: bit 10 `rst`, bit 9 `sil`, bit 8 `in_valid`,
bits 7..0 `in_byte` (30_encoding.md R48). -/
abbrev OpWord := BitVec 11

/-- The 2-bit result code (10_state.md R14, 30_encoding.md R52). -/
abbrev ResCode := BitVec 2

/-- The write cursor: 4 bits that hold 0 to 13, the type the spec's own record gives it
(10_state.md R14, R19, R31). -/
abbrev Cursor := Fin 14

/-- The buffer's index space, 0 to 9: the block's only address space (20_memory.md R32). -/
abbrev BufIndex := Fin 10

end Sys2Proof
end

