-- ==== Sys2Proof/Config.lean ====
section
/-! DEFINITION. What is fixed when the block is built: the named protocol parameters of
00_scope.md R10, the platform's open parameter, and the one free value. -/

namespace Sys2Proof.Config

/-- `MARK0`, the first marker byte (R10). -/
abbrev mark0 : Byte := 0xFF
/-- `MARK1`, the second marker byte (R10). -/
abbrev mark1 : Byte := 0x55
/-- `FRAME_LEN`: a frame is 10 bytes, positions 0 to 9 (R10, R11). -/
abbrev frameLen : Nat := 10
/-- `SUM_LO`: the first summed frame position (R10). -/
abbrev sumLo : Nat := 2
/-- `SUM_HI`: the last summed frame position (R10). -/
abbrev sumHi : Nat := 8
/-- `CHK_POS`: the frame position of the checksum (R10). -/
abbrev chkPos : Nat := 9
/-- `CURSOR_START`: where marker recognition sets the cursor before it stores the `0x55` (R10, R63). -/
abbrev cursorStart : Nat := 1
/-- `COMPLETE_AT`: a frame completes when the cursor exceeds this value (R10, R61). -/
abbrev completeAt : Nat := 9
/-- `OVF_LIMIT`: the out-of-frame count is reset when it exceeds this value (R10, R67). -/
abbrev ovfLimit : Nat := 12
/-- `MOD`: the checksum's modulus (R10, R68). -/
abbrev modulus : Nat := 256
/-- `SILENCE_WINDOW` in milliseconds. It belongs to the external silence timer, and no rule of the
block reads it (R10, 60_exceptions.md R90, 93_implementation_defined.md U11). -/
abbrev silenceWindowMs : Nat := 200
/-- `BUF_LEN`: the buffer's number of entries (R9). -/
abbrev bufLen : Nat := 10
/-- The value that "cleared" means for `prev` (10_state.md R17, decision D7). -/
abbrev prevCleared : Byte := 0x00
/-- The word a cycle with no event shows: every strobe 0, which selects IDLE (30_encoding.md R47).
DESIGN CHOICE (log entry 2), unsafe: the model takes it where the driver presents no word. -/
abbrev noEventWord : OpWord := 0x000

/-- The buffer index of the k-th summed payload byte: position `SUM_LO + k`, so 0..6 are positions
`SUM_LO` to `SUM_HI` (R10, R11). -/
abbrev payloadIndex (k : Fin 7) : BufIndex := ⟨sumLo + k.val, by have := k.isLt; simp only [sumLo]; omega⟩

/-- `N_INSTANCES`: how many instances a platform has, left open (00_scope.md R7, 60_exceptions.md R89,
decision D18). No body, so nothing can be proved of its value. -/
opaque nInstances : Nat

/-- FREE VALUE: what an entry of `buf` that nothing has written since RESET holds, by its index
("any value", 93_implementation_defined.md U2). No body. It is read only in states no run
reaches (10_state.md R29). See log entry 3. -/
opaque unspecifiedBuf : BufIndex → Byte

end Sys2Proof.Config
end

