-- ==== Sys2Proof/Machine/State.lean ====
section
/-! DEFINITION. The state of one FSCV instance (10_state.md R14, R31), the storage it holds, its
faults and refusals, and the state after RESET (R28). -/

namespace Sys2Proof.Machine

/-- The accumulation buffer as storage: the entries written since RESET, as (index, byte) pairs with
indices strictly rising. An index that is not listed holds NO VALUE: it is unspecified, the `none`
of 10_state.md R31. -/
abbrev Memory := List Host.Cell

/-- The canonical form from index `lo` on: strictly rising indices, all inside the buffer. -/
def Memory.wfFrom (lo : Nat) : Memory → Bool
  | [] => true
  | (a, _) :: rest => decide (lo ≤ a) && decide (a < Config.bufLen) && Memory.wfFrom (a + 1) rest

/-- The canonical form: strictly rising indices 0 to 9. No entry can equal what an unlisted index
reads as, because that is no value. -/
def Memory.wf (m : Memory) : Bool := Memory.wfFrom 0 m

/-- The frame output register `fo[0..7]`, each entry under the name of its view (10_state.md R20,
R21): `fo[0]` is `ax0`, `fo[1]` is `btn0`, and so on to `fo[7]`, `chk`. -/
structure FrameOut where
  ax0 : Byte
  btn0 : Byte
  ax1 : Byte
  btn1 : Byte
  ax2 : Byte
  btn2 : Byte
  ax3 : Byte
  chk : Byte
  deriving DecidableEq, Repr

/-- What an `InvariantFault` reports (60_exceptions.md R84). -/
inductive Breach where
  /-- A FEED met `in_frame = 1` with this `cursor`, outside 2..9. -/
  | cursorOutOfFrame (cursor : Cursor)
  /-- An observation met `res_code = 3`, which is never driven. -/
  | reservedResCode
  deriving DecidableEq, Repr

/-- Why the model stops with a fault. The hardware itself never stops (60_exceptions.md R81). -/
inductive Fault where
  /-- `InvariantFault(info)`, the spec's own model outcome (R84). Raised by FEED with the cursor
  breach and by every observation of `res_code` (of a run, at the ports, by the consumer) with the
  code breach, from states no run reaches.
  Safe. -/
  | invariantFault (info : Breach)
  /-- A consumer read `fo` before the first ValidFrame since RESET (70_reset_and_hazards.md R104,
  93_implementation_defined.md U3). Raised by the consumer's reads of `fo` and of its port only,
  never by `step`. Safe. -/
  | foUnspecified
  deriving DecidableEq, Repr

/-- Why the model refuses an instruction. -/
inductive Refusal where
  /-- An instruction with no meaning in this model. No arm of `exec` answers with it: all five
  operations have their meaning. Safe. -/
  | notModelled (mnemonic : String)
  deriving DecidableEq, Repr

/-- The state vector of 10_state.md R14, in the form of R31, and `inputs`, the model's own field. -/
structure State where
  /-- `in_frame` (R15): the block is collecting a frame. -/
  inFrame : Bool
  /-- `cursor` (R16): in a frame, the position the next byte goes to; outside one, a count of bytes. -/
  cursor : Cursor
  /-- `prev` (R17): the last byte fed, or 0x00 where it was cleared. -/
  prev : Byte
  /-- `buf[0..9]` (R18): the accumulation buffer. -/
  buf : Memory
  /-- `fo[0..7]` (R20); `none` is the spec's own state "no ValidFrame since RESET" (R31). -/
  fo : Option FrameOut
  /-- `res_valid` (R22): the result strobe of the last operation. -/
  resValid : Bool
  /-- `res_code` (R22): the result code of the last feed. -/
  resCode : ResCode
  /-- THE MODEL'S OWN FIELD: the operation words the driver will present, one a cycle, the next one
  first. The spec supplies each word from outside (R30, 41_control.md R79). Log entry 2. -/
  inputs : List OpWord
  deriving DecidableEq, Repr

/-- The state after RESET, and no word presented yet (10_state.md R28; 41_control.md R78). -/
def State.reset : State where
  inFrame := false
  cursor := 0
  prev := Config.prevCleared
  buf := []
  fo := none
  resValid := false
  resCode := 0
  inputs := []

end Sys2Proof.Machine
end

