-- ==== Sys2Proof/Machine/Ops.lean ====
section
/-! DEFINITION. The named operations over the buffer and the registers that the meanings are written
with. The block takes no exception and returns from none (60_exceptions.md R81, R88): its recoveries
are `State.leaveFrame` and `State.clearSync`, done inside the operation that detects the error. -/

namespace Sys2Proof.Machine

/-- `MemRead(i, 1)`, which is `buf[i]`; none where nothing has been written since RESET
(00_scope.md R12, 20_memory.md R32). -/
def Memory.read (m : Memory) (i : BufIndex) : Option Byte :=
  match m with
  | [] => none
  | (a, v) :: rest => if a = i.val then some v else Memory.read rest i

/-- `MemWrite(i, 1, v)`, which is `buf[i] <- v`, keeping the indices rising (R12, R32). -/
def Memory.write (m : Memory) (i : BufIndex) (v : Byte) : Memory :=
  match m with
  | [] => [(i.val, v)]
  | (a, u) :: rest =>
    if i.val < a then (i.val, v) :: (a, u) :: rest
    else if i.val = a then (i.val, v) :: rest
    else (a, u) :: Memory.write rest i v

/-- What `buf[i]` holds: the byte written, or, where nothing has been written since RESET, the free
value (10_state.md R28; 93_implementation_defined.md U2; log entry 3). -/
def State.bufByte (s : State) (i : BufIndex) : Byte :=
  (s.buf.read i).getD (Config.unspecifiedBuf i)

/-- Store one byte in the buffer; at most one entry an operation (20_memory.md R38). -/
def State.storeBuf (s : State) (i : BufIndex) (v : Byte) : State := { s with buf := s.buf.write i v }

/-- Set `prev` (10_state.md R17). -/
def State.setPrev (s : State) (b : Byte) : State := { s with prev := b }

/-- Set `cursor` (10_state.md R16). -/
def State.setCursor (s : State) (c : Cursor) : State := { s with cursor := c }

/-- Set `in_frame` to 1 (10_state.md R15). -/
def State.enterFrame (s : State) : State := { s with inFrame := true }

/-- Resynchronization after a completed frame: `in_frame <- 0 ; cursor <- 0` (40_feed.md R65, R66). -/
def State.leaveFrame (s : State) : State := { s with inFrame := false, cursor := 0 }

/-- What SIL and RESET clear: `in_frame`, `cursor` and `prev` (41_control.md R76, R78). -/
def State.clearSync (s : State) : State :=
  { s with inFrame := false, cursor := 0, prev := Config.prevCleared }

/-- Capture a valid frame on the output, all eight bytes at once (10_state.md R20, 20_memory.md R38). -/
def State.setFo (s : State) (f : FrameOut) : State := { s with fo := some f }

/-- Leave `buf` and `fo` with no value, which RESET alone does (41_control.md R78). -/
def State.dropData (s : State) : State := { s with buf := [], fo := none }

/-- The out-of-frame count after one more byte: `cursor + 1`, or 0 where that exceeds `OVF_LIMIT`
(40_feed.md R62, R67). -/
def nextCount (c : Cursor) : Cursor :=
  if h : c.val + 1 > Config.ovfLimit then 0
  else ⟨c.val + 1, by simp only [Config.ovfLimit] at h; omega⟩

/-- The in-frame cursor as the buffer position it names, where it is in 2..9; none where it breaks
the range invariant (10_state.md R19, 40_feed.md R61). -/
def framePosition (c : Cursor) : Option BufIndex :=
  if h : Config.sumLo ≤ c.val ∧ c.val ≤ Config.chkPos then
    some ⟨c.val, by simp only [Config.chkPos] at h; omega⟩
  else none

/-- The cursor one past a buffer position; exact, never a wrap (00_scope.md R12). -/
def cursorAfter (i : BufIndex) : Cursor := ⟨i.val + 1, by have := i.isLt; omega⟩

end Sys2Proof.Machine
end

