-- ==== Sys2Proof/Syntax.lean ====
section
/-! DEFINITION. The five operations of the block, one constructor for each row of
spec/opcode_table.json (30_encoding.md R47). -/

namespace Sys2Proof

/-- The block's operations. FEED and SILFEED have one operand, an unsigned byte used as it is
(30_encoding.md R49). The don't-care bits of a word are no part of the operation (R48, R51). -/
inductive Instr where
  /-- IDLE: a cycle with no event (41_control.md R75). -/
  | idle
  /-- FEED b: one byte of the stream (40_feed.md R61). -/
  | feed (b : Byte)
  /-- SIL: the silence reset (41_control.md R76). -/
  | sil
  /-- SILFEED b: the silence reset and a byte in one cycle (41_control.md R77). -/
  | silfeed (b : Byte)
  /-- RESET: the construction reset (41_control.md R78). -/
  | reset
  deriving DecidableEq, Repr

end Sys2Proof
end

