-- ==== Sys2Proof/Machine/Flags.lean ====
section
/-! DEFINITION. The result strobe and the result code, the block's only status outputs
(10_state.md R22, R23; 30_encoding.md R52). -/

namespace Sys2Proof.Machine

/-- The source's FrameResult; the data of a ValidFrame is carried by `fo` (30_encoding.md R52, R53). -/
inductive FrameResult where
  | incomplete
  | validFrame
  | checksumMismatch
  deriving DecidableEq, Repr

/-- The code of a FrameResult (30_encoding.md R52). -/
def FrameResult.code : FrameResult → ResCode
  | .incomplete => 0
  | .validFrame => 1
  | .checksumMismatch => 2

/-- The FrameResult a code stands for; code 3 is reserved (30_encoding.md R52). -/
def frameResultOf (c : ResCode) : Option FrameResult :=
  if c = 0 then some .incomplete
  else if c = 1 then some .validFrame
  else if c = 2 then some .checksumMismatch
  else none

/-- `emit Result(c)` with the strobe that every FEED sets (40_feed.md R61). -/
def State.report (s : State) (r : FrameResult) : State := { s with resValid := true, resCode := r.code }

/-- `emit none`: `res_valid <- 0 ; res_code <- 0` (41_control.md R75, R76, R78). -/
def State.noReport (s : State) : State := { s with resValid := false, resCode := 0 }

/-- Whether an operation reports a result: FEED and SILFEED do (10_state.md R22;
70_reset_and_hazards.md R106, the table's last column). -/
def yieldsResult : Instr → Bool
  | .idle => false
  | .feed _ => true
  | .sil => false
  | .silfeed _ => true
  | .reset => false

end Sys2Proof.Machine
end

