-- ==== Sys2Proof/Machine/Operands.lean ====
section
/-! DEFINITION. The operands of the checksum: a frame's payload as it stands in the buffer, the
checksum function (40_feed.md R68) and the frame output made from the payload. -/

namespace Sys2Proof.Machine

/-- A frame's payload, positions 2 to 8 (00_scope.md R11, R13). -/
structure Payload where
  p2 : Byte
  p3 : Byte
  p4 : Byte
  p5 : Byte
  p6 : Byte
  p7 : Byte
  p8 : Byte
  deriving DecidableEq, Repr

/-- The exact sum of the payload bytes as unsigned numbers, 0 to 1785 (40_feed.md R68). -/
def Payload.sum (p : Payload) : Nat :=
  p.p2.toNat + p.p3.toNat + p.p4.toNat + p.p5.toNat + p.p6.toNat + p.p7.toNat + p.p8.toNat

/-- `chk(p2..p8)`: the exact sum modulo `MOD` (40_feed.md R68). -/
def Payload.checksum (p : Payload) : Byte := BitVec.ofNat 8 (p.sum % Config.modulus)

/-- The payload's bytes in the order of their positions. -/
def Payload.bytes (p : Payload) : List Byte := [p.p2, p.p3, p.p4, p.p5, p.p6, p.p7, p.p8]

/-- The frame output for a payload and its checksum byte: `fo[k] = buf[k+2]` for k = 0..6 and
`fo[7]` the byte fed (10_state.md R20, 40_feed.md R65). -/
def Payload.frameOut (p : Payload) (c : Byte) : FrameOut :=
  { ax0 := p.p2, btn0 := p.p3, ax1 := p.p4, btn1 := p.p5, ax2 := p.p6, btn2 := p.p7, ax3 := p.p8, chk := c }

/-- `buf[2..8]` as the checksum check reads it (40_feed.md R61). -/
def State.payload (s : State) : Payload where
  p2 := s.bufByte (Config.payloadIndex 0)
  p3 := s.bufByte (Config.payloadIndex 1)
  p4 := s.bufByte (Config.payloadIndex 2)
  p5 := s.bufByte (Config.payloadIndex 3)
  p6 := s.bufByte (Config.payloadIndex 4)
  p7 := s.bufByte (Config.payloadIndex 5)
  p8 := s.bufByte (Config.payloadIndex 6)

/-- The buffer index that marker recognition stores at, `CURSOR_START` (40_feed.md R63). -/
def markerIndex : BufIndex := ⟨Config.cursorStart, by decide⟩

/-- The buffer index of the checksum byte, `CHK_POS` (40_feed.md R65, R66). -/
def checksumIndex : BufIndex := ⟨Config.chkPos, by decide⟩

end Sys2Proof.Machine
end

