-- ==== Sys2Proof/Machine/Feed.lean ====
section
/-! DEFINITION. FEED (40_feed.md R61): its six cases R62 to R67, the operation they make up, and the
meaning of the FEED instruction. Every case reads the state before the operation; its writes take
effect together (00_scope.md R12). -/

namespace Sys2Proof.Machine

/-- The byte completes a marker: `prev = MARK0` and `b = MARK1` (40_feed.md R63). -/
def State.completesMarker (s : State) (b : Byte) : Bool := s.prev == Config.mark0 && b == Config.mark1

/-- An out-of-frame byte that completes no marker, the overflow guard among its cases
(40_feed.md R62, R67). -/
def feedSearch (b : Byte) (s : State) : State :=
  ((s.setPrev b).setCursor (nextCount s.cursor)).report .incomplete

/-- Marker recognition: the byte is stored at `CURSOR_START` and the cursor advances past it
(40_feed.md R63; 90_conflicts.md C1). -/
def feedMarker (b : Byte) (s : State) : State :=
  ((((s.storeBuf markerIndex b).setCursor (cursorAfter markerIndex)).enterFrame).setPrev b).report .incomplete

/-- Accumulation of a byte at position `i` (40_feed.md R64). -/
def feedAccumulate (b : Byte) (i : BufIndex) (s : State) : State :=
  (((s.storeBuf i b).setCursor (cursorAfter i)).setPrev b).report .incomplete

/-- Completion with a valid checksum; `prev` keeps the byte (40_feed.md R65). -/
def feedValid (b : Byte) (s : State) : State :=
  ((((s.storeBuf checksumIndex b).leaveFrame).setPrev b).setFo (s.payload.frameOut b)).report .validFrame

/-- Completion with a wrong checksum; `prev` is cleared (40_feed.md R66). -/
def feedMismatch (b : Byte) (s : State) : State :=
  (((s.storeBuf checksumIndex b).leaveFrame).setPrev Config.prevCleared).report .checksumMismatch

/-- A byte inside a frame, at position `i` (40_feed.md R61): a position past which the cursor exceeds
`COMPLETE_AT` completes the frame. -/
def feedInFrame (b : Byte) (i : BufIndex) (s : State) : State :=
  if i.val + 1 > Config.completeAt then
    if s.payload.checksum = b then feedValid b s else feedMismatch b s
  else feedAccumulate b i s

/-- The FEED operation (40_feed.md R61). Its one fault is the spec's `InvariantFault`, on a state no
run reaches (60_exceptions.md R84). -/
def feed (b : Byte) (s : State) : Host.Outcome State Fault Refusal :=
  if s.inFrame then
    match framePosition s.cursor with
    | some i => .next (feedInFrame b i s)
    | none => .fault (.invariantFault (.cursorOutOfFrame s.cursor))
  else if s.completesMarker b then .next (feedMarker b s)
  else .next (feedSearch b s)

/-- FEED b (40_feed.md R61). -/
def execFeed (b : Byte) (s : State) : Host.Outcome State Fault Refusal := feed b s

end Sys2Proof.Machine
end

