-- ==== Sys2Proof/Machine/Control.lean ====
section
/-! DEFINITION. The control operations IDLE, SIL, SILFEED and RESET (41_control.md R75 to R78). -/

namespace Sys2Proof.Machine

/-- The state SIL leaves: the decoder registers cleared, `buf` and `fo` kept, no result
(41_control.md R76). -/
def silenceReset (s : State) : State := s.clearSync.noReport

/-- IDLE: no result; everything else is kept (41_control.md R75). -/
def execIdle (s : State) : Host.Outcome State Fault Refusal := .next s.noReport

/-- SIL (41_control.md R76). -/
def execSil (s : State) : Host.Outcome State Fault Refusal := .next (silenceReset s)

/-- SILFEED b: the silence reset, then FEED b on the state it leaves (41_control.md R77;
30_encoding.md R50). -/
def execSilfeed (b : Byte) (s : State) : Host.Outcome State Fault Refusal := feed b (silenceReset s)

/-- RESET: the decoder registers cleared, `buf` and `fo` left with no value, no result
(41_control.md R78). The driver's words to come are no part of the block and stay. -/
def execReset (s : State) : Host.Outcome State Fault Refusal := .next s.clearSync.dropData.noReport

end Sys2Proof.Machine
end

