-- ==== Sys2Proof/Machine/Dispatch.lean ====
section
/-! DEFINITION. One arm for each operation. -/

namespace Sys2Proof.Machine

def exec (i : Instr) (s : State) : Host.Outcome State Fault Refusal :=
  match i with
  | .idle => Sys2Proof.Machine.execIdle s
  | .feed b => Sys2Proof.Machine.execFeed b s
  | .sil => Sys2Proof.Machine.execSil s
  | .silfeed b => Sys2Proof.Machine.execSilfeed b s
  | .reset => Sys2Proof.Machine.execReset s

end Sys2Proof.Machine
end

