-- ==== Sys2Proof/WellFormed.lean ====
section
/-! DEFINITION. Which operations are well formed: all of them. A byte operand takes every value
0 to 255 (30_encoding.md R49) and no operation is illegal, reserved or a hint (R51), so there is no
check here that could refuse a term. The checks that can refuse one stand where their data is:
`OpWord.canonical` (Decode.lean), `Memory.wf` (Machine/State.lean), `Stimulus.Line.wellFormed`
(Machine/Stimulus.lean) and `State.Inv` (Safety.lean). -/

namespace Sys2Proof

/-- Every operation is well formed (30_encoding.md R49, R51). -/
def Instr.wellFormed : Instr → Bool
  | .idle => true
  | .feed _ => true
  | .sil => true
  | .silfeed _ => true
  | .reset => true

end Sys2Proof
end

