-- ==== Sys2Proof/Decode.lean ====
section
/-! DEFINITION. The operation word (30_encoding.md R46 to R51): its fields, the decoder, the encoder,
and the host's numbering of a word. The decoder is total: every one of the 2^11 words selects one
operation (R51), so it rejects nothing. -/

namespace Sys2Proof

/-- `word[10]`, the synchronous reset strobe (30_encoding.md R48). -/
def OpWord.rst (w : OpWord) : Bool := w.getLsbD 10
/-- `word[9]`, the silence strobe (R48). -/
def OpWord.sil (w : OpWord) : Bool := w.getLsbD 9
/-- `word[8]`, the strobe that says a byte is present (R48). -/
def OpWord.inValid (w : OpWord) : Bool := w.getLsbD 8
/-- `word[7:0]`, the input byte; bit 7 is its most significant bit (R48, R49, 20_memory.md R35). -/
def OpWord.inByte (w : OpWord) : Byte := w.extractLsb' 0 8

/-- The input ports of one cycle, the clock apart (30_encoding.md R46). -/
structure InPorts where
  rst : Bool
  sil : Bool
  inValid : Bool
  inByte : Byte
  deriving DecidableEq, Repr

/-- The word with these three strobe bits, `{rst, sil, in_valid}`, above this byte (30_encoding.md R48). -/
def strobed (strobes : BitVec 3) (b : Byte) : OpWord := strobes ++ b

/-- `word = {rst, sil, in_valid, in_byte}`, the first named in the high bit (30_encoding.md R48). -/
def InPorts.word (p : InPorts) : OpWord :=
  strobed (BitVec.ofBool p.rst ++ BitVec.ofBool p.sil ++ BitVec.ofBool p.inValid) p.inByte

/-- The ports that show a word. -/
def OpWord.ports (w : OpWord) : InPorts := ⟨w.rst, w.sil, w.inValid, w.inByte⟩

/-- The operation a word selects, its don't-care bits ignored: `rst` overrides `sil` and `in_valid`,
and these two choose among the other four (30_encoding.md R47, R50, R51). -/
def decode (w : OpWord) : Instr :=
  match w.rst, w.sil, w.inValid with
  | true, _, _ => .reset
  | false, false, false => .idle
  | false, false, true => .feed w.inByte
  | false, true, false => .sil
  | false, true, true => .silfeed w.inByte

/-- The canonical word of an operation: don't-care bits are 0 (30_encoding.md R47, R48). -/
def encode : Instr → OpWord
  | .idle => strobed 0b000 0x00
  | .feed b => strobed 0b001 b
  | .sil => strobed 0b010 0x00
  | .silfeed b => strobed 0b011 b
  | .reset => strobed 0b100 0x00

/-- A word is canonical when its don't-care bits are 0: the byte where `in_valid = 0` or `rst = 1`,
and `sil` and `in_valid` where `rst = 1` (30_encoding.md R48; 93_implementation_defined.md U7). -/
def OpWord.canonical (w : OpWord) : Bool :=
  match w.rst, w.inValid with
  | true, v => !w.sil && !v && w.inByte == 0
  | false, true => true
  | false, false => w.inByte == 0

/-- The word whose bits are the low `nbits` bits of `w`, every bit above them 0; none for a number
that is no operation word (it has a bit above bit 10). -/
def tableWord (nbits w : Nat) : Option OpWord :=
  if w % 2 ^ nbits < 2 ^ 11 then some (BitVec.ofNat 11 (w % 2 ^ nbits)) else none

/-- What the decoder reads from an instruction whose bits are `w`, numbered as
spec/opcode_table.json numbers them. -/
def decodeTableWord (nbits w : Nat) : Option Instr := (tableWord nbits w).map decode

end Sys2Proof
end

