-- ==== Sys2Proof/Machine/Fetch.lean ====
section
/-! DEFINITION. Where the next operation word comes from. The block fetches nothing: a word is
supplied from outside in every cycle (10_state.md R30), and `inputs` holds the words to come. -/

namespace Sys2Proof.Machine

/-- The word on the ports in this cycle: the next one the driver presents, or, where it presents
none, the word of a cycle with no event. DESIGN CHOICE (log entry 2). -/
def State.presentedWord (s : State) : OpWord := s.inputs.headD Config.noEventWord

/-- The cycle passes: its word has been taken (70_reset_and_hazards.md R100). -/
def State.takeWord (s : State) : State := { s with inputs := s.inputs.tail }

/-- The driver presents this word next, before those already to come. -/
def State.presentNext (s : State) (w : OpWord) : State := { s with inputs := w :: s.inputs }

/-- The word of an instruction whose bits are `w`, the bits above `nbits` 0, on the 11 ports. -/
def portWord (nbits w : Nat) : OpWord := BitVec.ofNat 11 (w % 2 ^ nbits)

end Sys2Proof.Machine
end

