-- ==== Sys2Proof/Machine/Step.lean ====
section
/-! DEFINITION. The step function: one clock cycle is one step (41_control.md R79). -/

namespace Sys2Proof.Machine

/-- One cycle: the word on the ports selects an operation, which runs (41_control.md R79). -/
def step (s : State) : Host.Outcome State Fault Refusal :=
  exec (decode s.presentedWord) s.takeWord

/-- `s` with the instruction whose bits are `w` presented next (log entry 2). -/
def State.withFetchWord (s : State) (nbits w : Nat) : State := s.presentNext (portWord nbits w)

end Sys2Proof.Machine
end

