-- ==== Sys2Proof/Machine/Output.lean ====
section
/-! DEFINITION. What the outside sees of a state: the output ports (30_encoding.md R46), the
consumer's read of `fo` (70_reset_and_hazards.md R104) and the observation of a run (41_control.md
R80). Reading has no side effect (20_memory.md R40). -/

namespace Sys2Proof.Machine

/-- `fo[k]`, entry by entry (10_state.md R21). -/
def FrameOut.entry (f : FrameOut) (k : Fin 8) : Byte :=
  match k with
  | 0 => f.ax0
  | 1 => f.btn0
  | 2 => f.ax1
  | 3 => f.btn1
  | 4 => f.ax2
  | 5 => f.btn2
  | 6 => f.ax3
  | 7 => f.chk

/-- The payload a frame output carries, `fo[0..6]` (30_encoding.md R53). -/
def FrameOut.payload (f : FrameOut) : Payload := ⟨f.ax0, f.btn0, f.ax1, f.btn1, f.ax2, f.btn2, f.ax3⟩

/-- The button bitmasks, `fo[1]`, `fo[3]` and `fo[5]` (30_encoding.md R53). -/
def FrameOut.buttons (f : FrameOut) : List Byte := [f.btn0, f.btn1, f.btn2]

/-- Frame positions 1 to 9: the constant `0x55` and `fo` (30_encoding.md R53). -/
def FrameOut.positions (f : FrameOut) : List Byte := Config.mark1 :: f.payload.bytes ++ [f.chk]

/-- The checksum invariant of a frame (30_encoding.md R57). -/
def FrameOut.valid (f : FrameOut) : Bool := f.payload.checksum == f.chk

/-- `fo` on its 64-bit port, `fo[k]` on bits `[8k+7:8k]` (30_encoding.md R46). -/
def FrameOut.port (f : FrameOut) : BitVec 64 :=
  f.chk ++ f.ax3 ++ f.btn2 ++ f.ax2 ++ f.btn1 ++ f.ax1 ++ f.btn0 ++ f.ax0

/-- A consumer's read of `fo`: a fault before the first ValidFrame since RESET
(70_reset_and_hazards.md R104; 93_implementation_defined.md U3). -/
def State.readFo (s : State) : Except Fault FrameOut :=
  match s.fo with
  | some f => .ok f
  | none => .error .foUnspecified

/-- The FrameResult a consumer reads after an operation: none where the operation reported none, and
a fault on the reserved code (30_encoding.md R52; 60_exceptions.md R84). -/
def State.readResult (s : State) : Except Fault (Option FrameResult) :=
  match frameResultOf s.resCode with
  | none => .error (.invariantFault .reservedResCode)
  | some r => .ok (if s.resValid then some r else none)

/-- The observation after a step: the triple `(res_valid, res_code, fo)`, where `fo` may hold no
value (41_control.md R80). -/
structure Observation where
  resValid : Bool
  resCode : ResCode
  fo : Option FrameOut
  deriving DecidableEq, Repr

/-- Observe a state. A model that sees `res_code = 3` raises `InvariantFault` (30_encoding.md R52;
60_exceptions.md R84). -/
def State.observation (s : State) : Except Fault Observation :=
  if s.resCode = 3 then .error (.invariantFault .reservedResCode)
  else .ok ⟨s.resValid, s.resCode, s.fo⟩

/-- The output ports (30_encoding.md R46). `res_valid` and `res_code` always carry their registers;
`fo` is `none` where the register holds no specified value (10_state.md R28, R31). -/
structure OutPorts where
  resValid : Bool
  resCode : ResCode
  fo : Option (BitVec 64)
  deriving DecidableEq, Repr

/-- The output ports as driven after an operation (30_encoding.md R46, R54): the observation, `fo` on
its 64 bits. Looking at the ports observes `res_code`, so the reserved code is `InvariantFault` here
too (30_encoding.md R52; 60_exceptions.md R84). -/
def State.outPorts (s : State) : Except Fault OutPorts :=
  match s.observation with
  | .ok o => .ok ⟨o.resValid, o.resCode, o.fo.map FrameOut.port⟩
  | .error e => .error e

/-- A consumer's read of the 64-bit `fo` port: a fault where it carries no specified value
(70_reset_and_hazards.md R104). DEDUCED (log entry 8), safe: where the ports show the reserved code the
read is `InvariantFault`, whatever `fo` holds; the read of the register, `State.readFo`, is not. -/
def State.readFoPort (s : State) : Except Fault (BitVec 64) :=
  match s.outPorts with
  | .ok ⟨_, _, some bits⟩ => .ok bits
  | .ok ⟨_, _, none⟩ => .error .foUnspecified
  | .error e => .error e

end Sys2Proof.Machine
end

