-- ==== Sys2Proof/Machine/Run.lean ====
section
/-! DEFINITION. Runs and observations (41_control.md R80): the operations of a run one after the
other, the list of what is observed after each, and the list of FrameResults in it. -/

namespace Sys2Proof.Machine

/-- The state after a sequence of operations, in order (20_memory.md R42). -/
def runOps : List Instr → State → Host.Outcome State Fault Refusal
  | [], s => .next s
  | i :: ops, s =>
    match exec i s with
    | .next t => runOps ops t
    | .fault f => .fault f
    | .refused r => .refused r

/-- The observations after every operation of a sequence (41_control.md R80). -/
def observations : List Instr → State → Host.Outcome (List Observation) Fault Refusal
  | [], _ => .next []
  | i :: ops, s =>
    match exec i s with
    | .fault f => .fault f
    | .refused r => .refused r
    | .next t =>
      match t.observation with
      | .error f => .fault f
      | .ok o =>
        match observations ops t with
        | .next os => .next (o :: os)
        | .fault f => .fault f
        | .refused r => .refused r

/-- The observations after every step whose `res_valid = 1`: the source's sequence of FrameResults,
one for each fed byte (41_control.md R80). -/
def results (ops : List Instr) (s : State) : Host.Outcome (List Observation) Fault Refusal :=
  match observations ops s with
  | .next os => .next (os.filter (·.resValid))
  | .fault f => .fault f
  | .refused r => .refused r

/-- A run: a RESET, then a finite sequence of operation words (41_control.md R80). -/
def runFromReset (words : List OpWord) (s : State) : Host.Outcome (List Observation) Fault Refusal :=
  observations (.reset :: words.map decode) s

/-- Feed a list of bytes, in order. -/
def feeds (bs : List Byte) : List Instr := bs.map .feed

/-- The ten bytes of a frame on the wire: the marker, the payload, the trailing byte (30_encoding.md
R55). -/
def frameBytes (p : Payload) (c : Byte) : List Byte := Config.mark0 :: Config.mark1 :: (p.bytes ++ [c])

/-- No two neighbouring bytes of the list are the marker `0xFF 0x55` (30_encoding.md R56). -/
def noMarkerPair : List Byte → Bool
  | a :: b :: rest => !(a == Config.mark0 && b == Config.mark1) && noMarkerPair (b :: rest)
  | _ => true

end Sys2Proof.Machine
end

