-- ==== Sys2Proof/Machine/System.lean ====
section
/-! DEFINITION. Several instances (00_scope.md R7; 20_memory.md R43; 60_exceptions.md R89): the
product of independent single-instance machines, whose steps interleave in any order. The number of
instances is `Config.nInstances`, open; everything here is written for any number. -/

namespace Sys2Proof.Machine

/-- `n` instances, each with its own state; they share none (60_exceptions.md R89). -/
abbrev Instances (n : Nat) := Vector State n

/-- The platform's instances. -/
abbrev Platform := Instances Config.nInstances

/-- One step of instance `k`; the others keep their states (60_exceptions.md R89). -/
def stepInstance {n : Nat} (k : Fin n) (sys : Instances n) : Host.Outcome (Instances n) Fault Refusal :=
  match step sys[k] with
  | .next t => .next (sys.set k t)
  | .fault f => .fault f
  | .refused r => .refused r

/-- A schedule names, step by step, the instance that moves; nothing constrains it
(20_memory.md R43). -/
def runSchedule {n : Nat} : List (Fin n) → Instances n → Host.Outcome (Instances n) Fault Refusal
  | [], sys => .next sys
  | k :: ks, sys =>
    match stepInstance k sys with
    | .next t => runSchedule ks t
    | .fault f => .fault f
    | .refused r => .refused r

end Sys2Proof.Machine
end

