-- ==== Sys2Proof/Safety.lean ====
section
/-! DEFINITION. What claims count as a sound state and a safe run. -/

namespace Sys2Proof.Machine

/-- While a frame is being collected (10_state.md R19): the cursor is in 2..9, entry 1 holds the
marker's `0x55`, every entry below the cursor has been written, and the entry last written holds
`prev`, the last byte fed (R17). -/
abbrev State.CollectsFrame (s : State) : Prop :=
  2 ≤ s.cursor.val ∧ s.cursor.val ≤ 9 ∧ s.buf.read 1 = some 0x55 ∧
    (∀ k : BufIndex, 2 ≤ k.val → k.val < s.cursor.val → (s.buf.read k).isSome) ∧
    (∀ k : BufIndex, k.val + 1 = s.cursor.val → s.buf.read k = some s.prev)

/-- The invariant of every reachable state. The range clauses are 10_state.md R19; entry 0 never
holds a value (R18, 20_memory.md R41); code 3 is never driven (30_encoding.md R52); without a strobe
the code is 0 (R22); what `fo` carries meets the checksum (30_encoding.md R57); and the buffer keeps
its canonical form. -/
abbrev State.Inv (s : State) : Prop :=
  s.buf.wf = true ∧ s.buf.read 0 = none ∧
    (s.inFrame = true → s.CollectsFrame) ∧
    (s.inFrame = false → s.cursor.val ≤ 12) ∧
    s.resCode ≠ 3 ∧ (s.resValid = false → s.resCode = 0) ∧
    (∀ f ∈ s.fo, f.valid = true)

/-- An outcome that is a next state: the block never stops (60_exceptions.md R81). -/
def Completes (o : Host.Outcome State Fault Refusal) : Prop := ∃ t, o = .next t

end Sys2Proof.Machine
end

