-- ==== Sys2Proof/Certificates/Slice0/Obligations.lean ====
section
/-! DEFINITION. The statements about the machine. Byte values, positions and limits are written as
the rules write them, not through `Config`. `s.bufByte k` is what `buf[k]` holds: the byte written,
or a free value where nothing has been written since RESET (log entry 3). `inputs`, the words to
come, is the model's own field (log entry 2). -/

open Sys2Proof Sys2Proof.Machine

/-! ## The operation word -/

/-- Decoding the encoding of an operation gives the operation back, with every operand at every
value (30_encoding.md R47 to R49). Every operation is well formed, so none is left out. -/
def Obligations.DecodeEncodeAgree : Prop :=
  ∀ i : Instr, i.wellFormed = true ∧ decode (encode i) = i

/-- A canonical word is the encoding of the operation it selects: of the words that select one
operation, one is canonical. 30_encoding.md R48 writes bits 7..0 as 0 where they are don't-care;
that the canonical word of RESET has `sil` and `in_valid` 0 as well, so that 0x500 and 0x600 are not
canonical, is the MODEL'S CHOICE (log entry 17). -/
def Obligations.CanonicalWordsRoundTrip : Prop :=
  ∀ w : OpWord, w.canonical = true → encode (decode w) = w

/-- The three strobes select the operation, whatever the don't-care inputs, and the byte is the
operand (30_encoding.md R47). -/
def Obligations.StrobesSelectOperation : Prop :=
  ∀ p : InPorts,
    (p.rst = false → p.sil = false → p.inValid = false → decode p.word = .idle) ∧
    (p.rst = false → p.sil = false → p.inValid = true → decode p.word = .feed p.inByte) ∧
    (p.rst = false → p.sil = true → p.inValid = false → decode p.word = .sil) ∧
    (p.rst = false → p.sil = true → p.inValid = true → decode p.word = .silfeed p.inByte) ∧
    (p.rst = true → decode p.word = .reset)

/-- The decoder against the opcode table's match and mask: each word matches the row of the
operation it decodes to, and the operand is its low byte (opcode_table.json; 30_encoding.md R47). -/
def Obligations.DecodeMatchesOpcodeTable : Prop :=
  ∀ w : OpWord,
    (w &&& 0x700 = 0x000 → decode w = .idle) ∧
    (w &&& 0x700 = 0x100 → decode w = .feed (w.truncate 8)) ∧
    (w &&& 0x700 = 0x200 → decode w = .sil) ∧
    (w &&& 0x700 = 0x300 → decode w = .silfeed (w.truncate 8)) ∧
    (w &&& 0x400 = 0x400 → decode w = .reset)

/-- The decode vectors of 95_test_vectors.md section 3. -/
def Obligations.DecodeReadsSpecWords : Prop :=
  decode 0x000 = .idle ∧ decode 0x0AB = .idle ∧ decode 0x1AB = .feed 0xAB ∧ decode 0x2CD = .sil ∧
    decode 0x3CD = .silfeed 0xCD ∧ decode 0x400 = .reset ∧ decode 0x5FF = .reset ∧
    decode 0x6AA = .reset ∧ decode 0x7FF = .reset

/-! ## The step -/

/-- A step runs the operation that the presented word decodes to, on the state with that word taken
(41_control.md R79). What step adds around exec is that the word is taken from `inputs`, the model's
own field (log entry 2). -/
def Obligations.StepRunsDecodedInstruction : Prop :=
  ∀ (s : State) (w : OpWord) (rest : List OpWord) (i : Instr),
    s.inputs = w :: rest → decode w = i → step s = exec i { s with inputs := rest }

/-- Where the driver presents no word, the step is IDLE. This is the MODEL'S CHOICE (log entry 2). -/
def Obligations.StepWithoutWordIsIdle : Prop :=
  ∀ s : State, s.inputs = [] → step s = exec .idle s

/-- A step takes exactly one word from `inputs`, whatever it does with it, and none where none is
presented. The field and the way a step takes from it are the MODEL'S CHOICE (log entry 2). -/
def Obligations.StepTakesOneWord : Prop :=
  ∀ s t : State, step s = .next t → t.inputs = s.inputs.tail

/-- The step function written on the word's bits (41_control.md R79), the word standing first in
`inputs` (log entry 2). -/
def Obligations.StepFollowsWordBits : Prop :=
  ∀ (s : State) (w : OpWord) (rest : List OpWord), s.inputs = w :: rest →
    (w.getLsbD 10 = true → step s = exec .reset { s with inputs := rest }) ∧
    (w.getLsbD 10 = false → w.getLsbD 9 = false → w.getLsbD 8 = false →
      step s = exec .idle { s with inputs := rest }) ∧
    (w.getLsbD 10 = false → w.getLsbD 9 = false → w.getLsbD 8 = true →
      step s = exec (.feed (w.truncate 8)) { s with inputs := rest }) ∧
    (w.getLsbD 10 = false → w.getLsbD 9 = true → w.getLsbD 8 = false →
      step s = exec .sil { s with inputs := rest }) ∧
    (w.getLsbD 10 = false → w.getLsbD 9 = true → w.getLsbD 8 = true →
      ∃ t, exec .sil { s with inputs := rest } = .next t ∧ step s = exec (.feed (w.truncate 8)) t)

/-- Priority between the strobes: `rst` overrides `sil` and `in_valid` and the byte is dropped;
`sil` and `in_valid` together do both, the silence reset first (30_encoding.md R50). The ports' word
stands first in `inputs` (log entry 2). -/
def Obligations.StrobePriority : Prop :=
  ∀ (s : State) (p : InPorts) (rest : List OpWord), s.inputs = p.word :: rest →
    (p.rst = true →
      step s = .next { inFrame := false, cursor := 0, prev := 0x00, buf := [], fo := none,
                       resValid := false, resCode := 0, inputs := rest }) ∧
    (p.rst = false → p.sil = true → p.inValid = true →
      ∃ t, exec .sil { s with inputs := rest } = .next t ∧ step s = exec (.feed p.inByte) t)

/-- Running the presented words through the host's interface is running the operations they decode
to, one after the other (41_control.md R79, R80; `inputs`, log entry 2). -/
def Obligations.CoreRunsPresentedWords : Prop :=
  ∀ (ws rest : List OpWord) (s : State),
    Host.Core.run Sys2Proof.core ws.length { s with inputs := ws ++ rest } =
      runOps (ws.map decode) { s with inputs := rest }

/-- An operation neither reads nor changes the words still to come, the model's own field (log
entry 2). -/
def Obligations.ExecIgnoresInputs : Prop :=
  ∀ (i : Instr) (s t : State) (ws : List OpWord), exec i s = .next t →
    t.inputs = s.inputs ∧ exec i { s with inputs := ws } = .next { t with inputs := ws }

/-! ## The control operations -/

/-- IDLE writes `res_valid` and `res_code` only (41_control.md R75). -/
def Obligations.IdleWritesOnlyResult : Prop :=
  ∀ s : State, exec .idle s = .next { s with resValid := false, resCode := 0 }

/-- SIL clears `in_frame`, `cursor` and `prev`, reports nothing and keeps `buf` and `fo`
(41_control.md R76). -/
def Obligations.SilenceResetResult : Prop :=
  ∀ s : State, exec .sil s =
    .next { s with inFrame := false, cursor := 0, prev := 0x00, resValid := false, resCode := 0 }

/-- SILFEED is SIL, then FEED on the state SIL leaves; its byte completes no marker, so its result
is always that of an out-of-frame byte, with `buf` and `fo` unchanged (41_control.md R77). -/
def Obligations.SilfeedResult : Prop :=
  ∀ (s : State) (b : Byte),
    (∃ t, exec .sil s = .next t ∧ exec (.silfeed b) s = exec (.feed b) t) ∧
    exec (.silfeed b) s =
      .next { s with inFrame := false, cursor := 1, prev := b, resValid := true, resCode := 0 }

/-- RESET, from any state: the decoder registers cleared, no result, and `buf` and `fo` holding no
value, which is what the rule has a model write for UNSPECIFIED (41_control.md R78). The words to
come are the model's own field and stay. -/
def Obligations.ResetResult : Prop :=
  ∀ s : State, exec .reset s =
    .next { inFrame := false, cursor := 0, prev := 0x00, buf := [], fo := none,
            resValid := false, resCode := 0, inputs := s.inputs }

/-- The values after RESET (10_state.md R28); an unspecified entry holds no value. -/
def Obligations.ResetStateValues : Prop :=
  State.reset.inFrame = false ∧ State.reset.cursor = 0 ∧ State.reset.prev = 0x00 ∧
    (∀ k : BufIndex, State.reset.buf.read k = none) ∧ State.reset.fo = none ∧
    State.reset.resValid = false ∧ State.reset.resCode = 0

/-- SIL and RESET are idempotent (20_memory.md R40). -/
def Obligations.SilenceAndResetIdempotent : Prop :=
  ∀ s t : State,
    (exec .sil s = .next t → exec .sil t = .next t) ∧ (exec .reset s = .next t → exec .reset t = .next t)

/-! ## FEED, case by case -/

/-- An out-of-frame byte that completes no marker is remembered as `prev` and counted; the count
goes to 0 where it would pass 12; nothing else changes (40_feed.md R62). -/
def Obligations.FeedSearchResult : Prop :=
  ∀ (s : State) (b : Byte), s.inFrame = false → ¬(s.prev = 0xFF ∧ b = 0x55) →
    ∃ c : Cursor, c.val = (if s.cursor.val + 1 > 12 then 0 else s.cursor.val + 1) ∧
      exec (.feed b) s = .next { s with prev := b, cursor := c, resValid := true, resCode := 0 }

/-- The overflow guard resets the cursor and nothing else: `prev` keeps the byte (40_feed.md R67). -/
def Obligations.OverflowResetsOnlyCursor : Prop :=
  ∀ (s : State) (b : Byte), s.inFrame = false → ¬(s.prev = 0xFF ∧ b = 0x55) → s.cursor.val + 1 > 12 →
    exec (.feed b) s = .next { s with prev := b, cursor := 0, resValid := true, resCode := 0 }

/-- Marker recognition: the block enters a frame, the `0x55` is stored at entry 1 and no other entry
changes, the cursor ends at 2 (40_feed.md R63). -/
def Obligations.FeedMarkerResult : Prop :=
  ∀ s : State, s.inFrame = false → s.prev = 0xFF →
    ∃ m : Memory, (∀ k : BufIndex, m.read k = if k = 1 then some 0x55 else s.buf.read k) ∧
      exec (.feed 0x55) s = .next { s with inFrame := true, cursor := 2, prev := 0x55, buf := m,
                                           resValid := true, resCode := 0 }

/-- Accumulation: any byte is stored at the cursor's position and no other entry changes; the cursor
advances by one (40_feed.md R64). -/
def Obligations.FeedAccumulateResult : Prop :=
  ∀ (s : State) (b : Byte), s.inFrame = true → 2 ≤ s.cursor.val → s.cursor.val ≤ 8 →
    ∃ (m : Memory) (c : Cursor), c.val = s.cursor.val + 1 ∧
      (∀ k : BufIndex, m.read k = if k.val = s.cursor.val then some b else s.buf.read k) ∧
      exec (.feed b) s = .next { s with cursor := c, prev := b, buf := m, resValid := true, resCode := 0 }

/-- Completion with a valid checksum: the byte goes to entry 9 alone, the frame ends, `prev` keeps the
byte, `fo` takes `buf[2..8]` and the byte, and the result is ValidFrame (40_feed.md R65). -/
def Obligations.FeedValidFrameResult : Prop :=
  ∀ (s : State) (b : Byte), s.inFrame = true → s.cursor.val = 9 →
    b.toNat = ((s.bufByte 2).toNat + (s.bufByte 3).toNat + (s.bufByte 4).toNat + (s.bufByte 5).toNat +
      (s.bufByte 6).toNat + (s.bufByte 7).toNat + (s.bufByte 8).toNat) % 256 →
    ∃ m : Memory, (∀ k : BufIndex, m.read k = if k = 9 then some b else s.buf.read k) ∧
      exec (.feed b) s = .next { s with
        inFrame := false, cursor := 0, prev := b, buf := m,
        fo := some { ax0 := s.bufByte 2, btn0 := s.bufByte 3, ax1 := s.bufByte 4, btn1 := s.bufByte 5,
                     ax2 := s.bufByte 6, btn2 := s.bufByte 7, ax3 := s.bufByte 8, chk := b },
        resValid := true, resCode := 1 }

/-- Completion with a wrong checksum: the byte goes to entry 9 alone, the frame ends, `prev` is
cleared, `fo` is unchanged, and the result is ChecksumMismatch (40_feed.md R66). -/
def Obligations.FeedMismatchResult : Prop :=
  ∀ (s : State) (b : Byte), s.inFrame = true → s.cursor.val = 9 →
    b.toNat ≠ ((s.bufByte 2).toNat + (s.bufByte 3).toNat + (s.bufByte 4).toNat + (s.bufByte 5).toNat +
      (s.bufByte 6).toNat + (s.bufByte 7).toNat + (s.bufByte 8).toNat) % 256 →
    ∃ m : Memory, (∀ k : BufIndex, m.read k = if k = 9 then some b else s.buf.read k) ∧
      exec (.feed b) s = .next { s with inFrame := false, cursor := 0, prev := 0x00, buf := m,
                                        resValid := true, resCode := 2 }

/-- A FEED from an in-frame state whose cursor is outside 2..9 is `InvariantFault(cursor)`
(40_feed.md R61, the last row of R74; 60_exceptions.md R84). -/
def Obligations.FeedFaultsOnBrokenCursor : Prop :=
  ∀ (s : State) (b : Byte), s.inFrame = true → (s.cursor.val < 2 ∨ 9 < s.cursor.val) →
    exec (.feed b) s = .fault (.invariantFault (.cursorOutOfFrame s.cursor))

/-- Every operation answers a next state from every state, but for the FEED that meets the broken
cursor; none is refused (41_control.md R79). -/
def Obligations.OnlyBrokenCursorStops : Prop :=
  ∀ (i : Instr) (s : State), (∃ t, exec i s = .next t) ∨
    (∃ b, i = .feed b ∧ s.inFrame = true ∧ (s.cursor.val < 2 ∨ 9 < s.cursor.val) ∧
      exec i s = .fault (.invariantFault (.cursorOutOfFrame s.cursor)))

/-! ## The checksum function -/

/-- The checksum is the same sum taken byte by byte with 8-bit wrap-around, in any order
(40_feed.md R68). -/
def Obligations.ChecksumIsWrappingSumInAnyOrder : Prop :=
  ∀ (p : Payload) (bs : List Byte), bs.Perm p.bytes → bs.foldl (· + ·) 0 = p.checksum

/-- A change to exactly one payload byte changes the checksum (40_feed.md R68). -/
def Obligations.SingleByteChangeIsDetected : Prop :=
  ∀ (p q : Payload) (k : Nat), (∀ j, j ≠ k → p.bytes[j]? = q.bytes[j]?) → p.bytes[k]? ≠ q.bytes[k]? →
    p.checksum ≠ q.checksum

/-! ## Invariants and safety -/

/-- The invariant holds after RESET (10_state.md R19, R28; its canonical-form clause is the model's,
log entry 1). -/
def Obligations.InvHoldsAtReset : Prop := State.reset.Inv

/-- Every step keeps the invariant (10_state.md R19; 20_memory.md R41; 30_encoding.md R52, R57). Its
clause on the buffer's canonical form is the model's (log entry 1). -/
def Obligations.StepKeepsInv : Prop := ∀ s t : State, s.Inv → step s = .next t → t.Inv

/-- Every step keeps the buffer in its canonical form, from every state that has it. The form is the
model's (log entry 1). -/
def Obligations.StepKeepsBufferCanonical : Prop :=
  ∀ s t : State, s.buf.wf = true → step s = .next t → t.buf.wf = true

/-- From a state that meets the invariant the block never stops (60_exceptions.md R81, R84). -/
def Obligations.InvStatesNeverStop : Prop := ∀ s : State, s.Inv → Completes (step s)

/-- A run, from any state, never stops and gives one observation for each operation: the RESET it
begins with puts the block in a reachable state (41_control.md R80; 60_exceptions.md R81, R84). -/
def Obligations.RunFromResetNeverStops : Prop :=
  ∀ (ws : List OpWord) (s : State), ∃ os, runFromReset ws s = .next os ∧ os.length = ws.length + 1

/-! ## What whole operations may and may not do -/

/-- After an operation that feeds a byte the strobe is 1; after any other it is 0 and the code is 0;
the reserved code is never driven (10_state.md R22; 30_encoding.md R52). -/
def Obligations.ResultStrobe : Prop :=
  ∀ (i : Instr) (s t : State), exec i s = .next t →
    t.resValid = yieldsResult i ∧ (yieldsResult i = false → t.resCode = 0) ∧ t.resCode ≠ 3

/-- A run reports exactly one FrameResult for each fed byte (10_state.md R22; 41_control.md R80). -/
def Obligations.OneResultPerFedByte : Prop :=
  ∀ (ops : List Instr) (s : State) (os : List Observation),
    results ops s = .next os → os.length = ops.countP yieldsResult

/-- An observation of the reserved code is `InvariantFault`; an observation of any other code is the
triple (30_encoding.md R52; 41_control.md R80; 60_exceptions.md R84). -/
def Obligations.ObservingReservedCodeFaults : Prop :=
  ∀ s : State,
    (s.resCode = 3 → s.observation = .error (.invariantFault .reservedResCode)) ∧
    (s.resCode ≠ 3 → s.observation = .ok ⟨s.resValid, s.resCode, s.fo⟩)

/-- `fo` is written by a ValidFrame completion and by RESET alone (10_state.md R20, 41_control.md
R78). R20 lists RESET among the operations that leave `fo` unchanged; the model follows R78 (log
entry 4). -/
def Obligations.FrameOutputWriters : Prop :=
  ∀ (i : Instr) (s t : State), exec i s = .next t → t.fo ≠ s.fo →
    (i = .reset ∧ t.fo = none) ∨
    (∃ b, i = .feed b ∧ s.inFrame = true ∧ s.cursor.val = 9 ∧ t.resCode = 1)

/-- `in_frame` is set by marker recognition alone, and cleared by frame completion, SIL (alone or
with a byte) and RESET alone (10_state.md R15). -/
def Obligations.InFrameWriters : Prop :=
  ∀ (i : Instr) (s t : State), exec i s = .next t →
    (s.inFrame = false → t.inFrame = true → i = .feed 0x55 ∧ s.prev = 0xFF) ∧
    (s.inFrame = true → t.inFrame = false →
      i = .sil ∨ i = .reset ∨ (∃ b, i = .silfeed b) ∨ (∃ b, i = .feed b ∧ s.cursor.val = 9))

/-- `prev` after each operation: the byte fed, cleared by a mismatch, by SIL and by RESET, kept by
IDLE (10_state.md R17). -/
def Obligations.PrevWriters : Prop :=
  ∀ (i : Instr) (s t : State), exec i s = .next t →
    (∀ b, i = .feed b → t.prev = if t.resCode = 2 then 0x00 else b) ∧
    (∀ b, i = .silfeed b → t.prev = b) ∧
    (i = .sil ∨ i = .reset → t.prev = 0x00) ∧ (i = .idle → t.prev = s.prev)

/-- Entry 0 of the buffer is never written: every operation but RESET keeps it, and RESET leaves it
with no value (10_state.md R18; 20_memory.md R41). -/
def Obligations.EntryZeroNeverWritten : Prop :=
  ∀ (i : Instr) (s t : State), exec i s = .next t →
    (i ≠ .reset → t.buf.read 0 = s.buf.read 0) ∧ (i = .reset → t.buf.read 0 = none)

/-- After SIL or RESET no single byte starts a frame: a marker whose `0xFF` came before is broken
(30_encoding.md R56; 70_reset_and_hazards.md R96). -/
def Obligations.SilenceAndResetBreakMarker : Prop :=
  ∀ (s t : State) (b : Byte), (exec .sil s = .next t ∨ exec .reset s = .next t) →
    ∃ u, exec (.feed b) t = .next u ∧ u.inFrame = false ∧ u.prev = b

/-- A consumer's read of `fo` is a fault until a ValidFrame has completed since the last RESET
(70_reset_and_hazards.md R104). -/
def Obligations.FrameOutputUnreadableBeforeValidFrame : Prop :=
  ∀ (ops : List Instr) (s t : State) (os : List Observation),
    observations (.reset :: ops) s = .next os → (∀ o ∈ os, o.resCode ≠ 1) →
    runOps (.reset :: ops) s = .next t → t.readFo = .error .foUnspecified

/-- On the 64-bit port, bits `[8k+7:8k]` are `fo[k]` (30_encoding.md R46). -/
def Obligations.FrameOutputPortPacking : Prop :=
  ∀ (f : FrameOut) (k : Fin 8), f.port.extractLsb' (8 * k.val) 8 = f.entry k

/-! ## Streams -/

/-- Bytes fed after the marker stand in the buffer in the order they arrived, from entry 2 on; no
byte value among them restarts synchronization and `fo` is kept (10_state.md R19; 20_memory.md R34;
40_feed.md R69). -/
def Obligations.CollectedBytesInOrder : Prop :=
  ∀ (s : State) (bs : List Byte), s.inFrame = true → s.cursor.val = 2 → bs.length ≤ 7 →
    ∃ t, runOps (feeds bs) s = .next t ∧ t.inFrame = true ∧ t.cursor.val = 2 + bs.length ∧ t.fo = s.fo ∧
      (∀ k : BufIndex, t.buf.read k =
        if 2 ≤ k.val ∧ k.val < 2 + bs.length then bs[k.val - 2]? else s.buf.read k)

/-- A correct frame whose `0xFF` arrives out of frame yields Incomplete nine times, then ValidFrame
with its own bytes on `fo`, with any number of IDLE cycles between its bytes (40_feed.md R71, which the spec marks [derived]:
"the block reports Incomplete for the first nine of those FEEDs and ValidFrame for the tenth"). -/
def Obligations.CorrectFrameYieldsOneValidFrame : Prop :=
  ∀ (s : State) (p : Payload) (ops : List Instr), s.inFrame = false →
    ops.filter (· ≠ .idle) = feeds (frameBytes p p.checksum) →
    results ops s = .next (List.replicate 9 ⟨true, 0, s.fo⟩ ++
      [⟨true, 1, some { ax0 := p.p2, btn0 := p.p3, ax1 := p.p4, btn1 := p.p5, ax2 := p.p6, btn2 := p.p7,
                        ax3 := p.p8, chk := p.checksum }⟩])

/-- After a ChecksumMismatch, a correct frame that follows at once or after bytes that contain no
marker pair is decoded (40_feed.md R72, which the spec marks [derived]: "A correctly formed frame that
follows immediately, or after bytes that contain no `0xFF 0x55` pair"). -/
def Obligations.RecoveryWithinOneFrame : Prop :=
  ∀ (s : State) (b : Byte) (noise : List Byte) (p : Payload),
    s.inFrame = true → s.cursor.val = 9 → b ≠ s.payload.checksum → noMarkerPair noise = true →
    (∃ t, exec (.feed b) s = .next t ∧ t.inFrame = false ∧ t.prev = 0x00) ∧
    results (feeds (b :: noise ++ frameBytes p p.checksum)) s =
      .next (⟨true, 2, s.fo⟩ :: List.replicate (noise.length + 9) ⟨true, 0, s.fo⟩ ++
        [⟨true, 1, some (p.frameOut p.checksum)⟩])

/-- Two frames that share a byte: the checksum `0xFF` of a valid frame and the next byte `0x55` are a
marker, so 19 bytes yield two ValidFrames (40_feed.md R73, which the spec marks [derived]). -/
def Obligations.SharedMarkerByte : Prop :=
  ∀ (s : State) (p q : Payload), s.inFrame = false → p.checksum = 0xFF →
    results (feeds (frameBytes p 0xFF ++ 0x55 :: (q.bytes ++ [q.checksum]))) s =
      .next (List.replicate 9 ⟨true, 0, s.fo⟩ ++
        ⟨true, 1, some (p.frameOut 0xFF)⟩ :: List.replicate 8 ⟨true, 0, some (p.frameOut 0xFF)⟩ ++
        [⟨true, 1, some (q.frameOut q.checksum)⟩])

/-- The out-of-frame count reaches no output: two states that differ only in it give the same
observations for every later sequence of operations (20_memory.md R36, which the spec marks
[derived]). -/
def Obligations.OutOfFrameCountUnobservable : Prop :=
  ∀ (s : State) (c : Cursor) (ops : List Instr), s.inFrame = false →
    observations ops { s with cursor := c } = observations ops s

/-- What the buffer holds out of frame, its unspecified value after RESET among it, reaches no output
(10_state.md R29, which the spec marks [derived]). -/
def Obligations.OutOfFrameBufferUnobservable : Prop :=
  ∀ (s : State) (m : Memory) (ops : List Instr), s.inFrame = false →
    observations ops { s with buf := m } = observations ops s

/-- Every value of `prev` but `0xFF` behaves the same (10_state.md R17, a sentence that the spec marks
[derived]). -/
def Obligations.PrevOtherThanMarkerUnobservable : Prop :=
  ∀ (s : State) (b : Byte) (ops : List Instr), s.prev ≠ 0xFF → b ≠ 0xFF →
    observations ops { s with prev := b } = observations ops s

/-- An IDLE inserted between any two operations changes no result (70_reset_and_hazards.md R105, which the spec marks
[derived]). -/
def Obligations.IdleInsertionChangesNoResult : Prop :=
  ∀ (before after : List Instr) (s : State),
    results (before ++ .idle :: after) s = results (before ++ after) s

/-- From an out-of-frame state, such as a ValidFrame leaves, `fo` stays through the next 8 fed bytes,
whatever else happens but RESET (70_reset_and_hazards.md R101, which the spec marks [derived]). -/
def Obligations.FrameOutputHeldForEightFeeds : Prop :=
  ∀ (s : State) (ops : List Instr), s.inFrame = false → .reset ∉ ops → ops.countP yieldsResult ≤ 8 →
    ∃ t, runOps ops s = .next t ∧ t.fo = s.fo

/-! ## Several instances -/

/-- Steps of different instances commute (20_memory.md R43; 60_exceptions.md R89; the vector of
instances is log entry 10). -/
def Obligations.InstancesCommute : Prop :=
  ∀ (n : Nat) (j k : Fin n) (sys a b : Instances n), j ≠ k →
    stepInstance j sys = .next a → stepInstance k sys = .next b →
    ∃ c, stepInstance k a = .next c ∧ stepInstance j b = .next c

/-- A step of one instance leaves every other instance's state as it was (60_exceptions.md R89). -/
def Obligations.OtherInstancesUnchanged : Prop :=
  ∀ (n : Nat) (j k : Fin n) (sys a : Instances n), j ≠ k → stepInstance j sys = .next a → a[k] = sys[k]

/-! ## The output ports -/

/-- After every operation the output ports carry the registers: `res_valid` and `res_code` always,
RESET and the cycles before the first ValidFrame included, and `fo[k]` on bits `[8k+7:8k]` of the `fo`
port where `fo` holds a value (30_encoding.md R46, R54). -/
def Obligations.OutputPortsShowRegisters : Prop :=
  ∀ (i : Instr) (s t : State), exec i s = .next t →
    ∃ o, t.outPorts = .ok o ∧ o.resValid = t.resValid ∧ o.resCode = t.resCode ∧
      (t.fo = none → o.fo = none) ∧
      (∀ f, t.fo = some f → ∃ bits, o.fo = some bits ∧ ∀ k : Fin 8, bits.extractLsb' (8 * k.val) 8 = f.entry k)

/-- The reserved code at the output ports is `InvariantFault`, whatever `fo` holds. For the ports and
for the consumer's read of the result that is the spec's (30_encoding.md R52; 60_exceptions.md R84). That
the consumer's read of the `fo` port is `InvariantFault` too, also where `fo` holds no value, is the
model's choice (log entry 8, DEDUCED): the spec does not say it. -/
def Obligations.PortsWithReservedCodeFault : Prop :=
  ∀ s : State, s.resCode = 3 →
    s.outPorts = .error (.invariantFault .reservedResCode) ∧
    s.readResult = .error (.invariantFault .reservedResCode) ∧
    s.readFoPort = .error (.invariantFault .reservedResCode)
end

