-- ==== Sys2Proof/Laws/Decode.lean ====
section
/-! SUPPORT. The fields of a word made from strobes and a byte. -/

namespace Sys2Proof

theorem strobed_getLsbD (k : BitVec 3) (b : Byte) (n : Nat) :
    (strobed k b).getLsbD n = if n < 8 then b.getLsbD n else k.getLsbD (n - 8) :=
  BitVec.getLsbD_append

@[simp] theorem strobed_rst (k : BitVec 3) (b : Byte) : (strobed k b).rst = k.getLsbD 2 := by
  rw [OpWord.rst, strobed_getLsbD]; rfl

@[simp] theorem strobed_sil (k : BitVec 3) (b : Byte) : (strobed k b).sil = k.getLsbD 1 := by
  rw [OpWord.sil, strobed_getLsbD]; rfl

@[simp] theorem strobed_inValid (k : BitVec 3) (b : Byte) : (strobed k b).inValid = k.getLsbD 0 := by
  rw [OpWord.inValid, strobed_getLsbD]; rfl

@[simp] theorem strobed_inByte (k : BitVec 3) (b : Byte) : (strobed k b).inByte = b := by
  apply BitVec.eq_of_getLsbD_eq
  intro n hn
  simp only [OpWord.inByte, BitVec.getLsbD_extractLsb', Nat.zero_add, strobed_getLsbD]
  simp [hn]

end Sys2Proof
end

