-- ==== Sys2Proof/Laws/Memory.lean ====
section
/-! SUPPORT. The laws of the buffer: what a read gives after a write, and that a write keeps the
canonical form. -/

namespace Sys2Proof.Machine

@[simp] theorem Memory.read_nil (i : BufIndex) : Memory.read [] i = none := rfl

@[simp] theorem Memory.wf_nil : Memory.wf [] = true := rfl

/-- A read of the entry just written gives what was written. -/
@[simp] theorem Memory.read_write_same (m : Memory) (i : BufIndex) (v : Byte) :
    (m.write i v).read i = some v := by
  induction m with
  | nil => simp [Memory.write, Memory.read]
  | cons c rest ih =>
    obtain ⟨a, u⟩ := c
    by_cases h1 : i.val < a
    · simp [Memory.write, Memory.read, h1]
    · by_cases h2 : i.val = a
      · simp [Memory.write, Memory.read, h2]
      · simp only [Memory.write, h1, h2, if_false, Memory.read, Ne.symm h2]
        exact ih

/-- A write leaves every other entry as it was. -/
theorem Memory.read_write_other (m : Memory) {i j : BufIndex} (v : Byte) (h : j ≠ i) :
    (m.write i v).read j = m.read j := by
  have hij : i.val ≠ j.val := fun e => h (Fin.ext e.symm)
  induction m with
  | nil => simp [Memory.write, Memory.read, hij]
  | cons c rest ih =>
    obtain ⟨a, u⟩ := c
    by_cases h1 : i.val < a
    · simp [Memory.write, Memory.read, h1, hij]
    · by_cases h2 : i.val = a
      · have haj : a ≠ j.val := fun e => hij (h2.trans e)
        simp [Memory.write, Memory.read, h2, haj]
      · simp only [Memory.write, h1, h2, if_false, Memory.read]
        split
        · rfl
        · exact ih

/-- Both laws at once. -/
theorem Memory.read_write (m : Memory) (i j : BufIndex) (v : Byte) :
    (m.write i v).read j = if j = i then some v else m.read j := by
  split
  · next h => subst h; exact m.read_write_same j v
  · next h => exact m.read_write_other v h

/-- A write at or above `lo` keeps the canonical form from `lo` on. -/
theorem Memory.wfFrom_write (m : Memory) (i : BufIndex) (v : Byte) (lo : Nat) (hlo : lo ≤ i.val)
    (h : m.wfFrom lo = true) : (m.write i v).wfFrom lo = true := by
  have hi : i.val < Config.bufLen := i.isLt
  induction m generalizing lo with
  | nil => simp [Memory.write, Memory.wfFrom, hlo, hi]
  | cons c rest ih =>
    obtain ⟨a, u⟩ := c
    simp only [Memory.wfFrom, Bool.and_eq_true, decide_eq_true_eq] at h
    obtain ⟨⟨h1, h2⟩, h3⟩ := h
    by_cases hlt : i.val < a
    · simp only [Memory.write, hlt, if_true, Memory.wfFrom, Bool.and_eq_true, decide_eq_true_eq]
      exact ⟨⟨hlo, hi⟩, ⟨hlt, h2⟩, h3⟩
    · by_cases heq : i.val = a
      · subst heq
        simp only [Memory.write, lt_irrefl, if_true, if_false, Memory.wfFrom, Bool.and_eq_true,
          decide_eq_true_eq]
        exact ⟨⟨h1, h2⟩, h3⟩
      · simp only [Memory.write, hlt, heq, if_false, Memory.wfFrom, Bool.and_eq_true,
          decide_eq_true_eq]
        exact ⟨⟨h1, h2⟩, ih (a + 1) (by omega) h3⟩

/-- A write keeps the canonical form. -/
theorem Memory.wf_write (m : Memory) (i : BufIndex) (v : Byte) (h : m.wf = true) :
    (m.write i v).wf = true :=
  m.wfFrom_write i v 0 (Nat.zero_le _) h

/-- An entry that has been written is read as it was written, whatever the free value. -/
theorem State.bufByte_of_read {s : State} {i : BufIndex} {v : Byte} (h : s.buf.read i = some v) :
    s.bufByte i = v := by
  simp [State.bufByte, h]

/-- After a store, the entry stored to holds the byte and the others hold what they did. -/
theorem State.bufByte_storeBuf (s : State) (i j : BufIndex) (v : Byte) :
    (s.storeBuf i v).bufByte j = if j = i then v else s.bufByte j := by
  simp only [State.bufByte, State.storeBuf, Memory.read_write]
  split <;> rfl

end Sys2Proof.Machine
end

