-- ==== Sys2Proof/Laws/State.lean ====
section
/-! SUPPORT. What each named update of the state leaves in each field. -/

namespace Sys2Proof.Machine

/-! `State.storeBuf` -/

@[simp] theorem State.storeBuf_inFrame (s : State) (i : BufIndex) (v : Byte) : (s.storeBuf i v).inFrame = s.inFrame := rfl
@[simp] theorem State.storeBuf_cursor (s : State) (i : BufIndex) (v : Byte) : (s.storeBuf i v).cursor = s.cursor := rfl
@[simp] theorem State.storeBuf_prev (s : State) (i : BufIndex) (v : Byte) : (s.storeBuf i v).prev = s.prev := rfl
@[simp] theorem State.storeBuf_buf (s : State) (i : BufIndex) (v : Byte) : (s.storeBuf i v).buf = s.buf.write i v := rfl
@[simp] theorem State.storeBuf_fo (s : State) (i : BufIndex) (v : Byte) : (s.storeBuf i v).fo = s.fo := rfl
@[simp] theorem State.storeBuf_resValid (s : State) (i : BufIndex) (v : Byte) : (s.storeBuf i v).resValid = s.resValid := rfl
@[simp] theorem State.storeBuf_resCode (s : State) (i : BufIndex) (v : Byte) : (s.storeBuf i v).resCode = s.resCode := rfl
@[simp] theorem State.storeBuf_inputs (s : State) (i : BufIndex) (v : Byte) : (s.storeBuf i v).inputs = s.inputs := rfl

/-! `State.setPrev` -/

@[simp] theorem State.setPrev_inFrame (s : State) (b : Byte) : (s.setPrev b).inFrame = s.inFrame := rfl
@[simp] theorem State.setPrev_cursor (s : State) (b : Byte) : (s.setPrev b).cursor = s.cursor := rfl
@[simp] theorem State.setPrev_prev (s : State) (b : Byte) : (s.setPrev b).prev = b := rfl
@[simp] theorem State.setPrev_buf (s : State) (b : Byte) : (s.setPrev b).buf = s.buf := rfl
@[simp] theorem State.setPrev_fo (s : State) (b : Byte) : (s.setPrev b).fo = s.fo := rfl
@[simp] theorem State.setPrev_resValid (s : State) (b : Byte) : (s.setPrev b).resValid = s.resValid := rfl
@[simp] theorem State.setPrev_resCode (s : State) (b : Byte) : (s.setPrev b).resCode = s.resCode := rfl
@[simp] theorem State.setPrev_inputs (s : State) (b : Byte) : (s.setPrev b).inputs = s.inputs := rfl

/-! `State.setCursor` -/

@[simp] theorem State.setCursor_inFrame (s : State) (c : Cursor) : (s.setCursor c).inFrame = s.inFrame := rfl
@[simp] theorem State.setCursor_cursor (s : State) (c : Cursor) : (s.setCursor c).cursor = c := rfl
@[simp] theorem State.setCursor_prev (s : State) (c : Cursor) : (s.setCursor c).prev = s.prev := rfl
@[simp] theorem State.setCursor_buf (s : State) (c : Cursor) : (s.setCursor c).buf = s.buf := rfl
@[simp] theorem State.setCursor_fo (s : State) (c : Cursor) : (s.setCursor c).fo = s.fo := rfl
@[simp] theorem State.setCursor_resValid (s : State) (c : Cursor) : (s.setCursor c).resValid = s.resValid := rfl
@[simp] theorem State.setCursor_resCode (s : State) (c : Cursor) : (s.setCursor c).resCode = s.resCode := rfl
@[simp] theorem State.setCursor_inputs (s : State) (c : Cursor) : (s.setCursor c).inputs = s.inputs := rfl

/-! `State.enterFrame` -/

@[simp] theorem State.enterFrame_inFrame (s : State) : s.enterFrame.inFrame = true := rfl
@[simp] theorem State.enterFrame_cursor (s : State) : s.enterFrame.cursor = s.cursor := rfl
@[simp] theorem State.enterFrame_prev (s : State) : s.enterFrame.prev = s.prev := rfl
@[simp] theorem State.enterFrame_buf (s : State) : s.enterFrame.buf = s.buf := rfl
@[simp] theorem State.enterFrame_fo (s : State) : s.enterFrame.fo = s.fo := rfl
@[simp] theorem State.enterFrame_resValid (s : State) : s.enterFrame.resValid = s.resValid := rfl
@[simp] theorem State.enterFrame_resCode (s : State) : s.enterFrame.resCode = s.resCode := rfl
@[simp] theorem State.enterFrame_inputs (s : State) : s.enterFrame.inputs = s.inputs := rfl

/-! `State.leaveFrame` -/

@[simp] theorem State.leaveFrame_inFrame (s : State) : s.leaveFrame.inFrame = false := rfl
@[simp] theorem State.leaveFrame_cursor (s : State) : s.leaveFrame.cursor = 0 := rfl
@[simp] theorem State.leaveFrame_prev (s : State) : s.leaveFrame.prev = s.prev := rfl
@[simp] theorem State.leaveFrame_buf (s : State) : s.leaveFrame.buf = s.buf := rfl
@[simp] theorem State.leaveFrame_fo (s : State) : s.leaveFrame.fo = s.fo := rfl
@[simp] theorem State.leaveFrame_resValid (s : State) : s.leaveFrame.resValid = s.resValid := rfl
@[simp] theorem State.leaveFrame_resCode (s : State) : s.leaveFrame.resCode = s.resCode := rfl
@[simp] theorem State.leaveFrame_inputs (s : State) : s.leaveFrame.inputs = s.inputs := rfl

/-! `State.clearSync` -/

@[simp] theorem State.clearSync_inFrame (s : State) : s.clearSync.inFrame = false := rfl
@[simp] theorem State.clearSync_cursor (s : State) : s.clearSync.cursor = 0 := rfl
@[simp] theorem State.clearSync_prev (s : State) : s.clearSync.prev = Config.prevCleared := rfl
@[simp] theorem State.clearSync_buf (s : State) : s.clearSync.buf = s.buf := rfl
@[simp] theorem State.clearSync_fo (s : State) : s.clearSync.fo = s.fo := rfl
@[simp] theorem State.clearSync_resValid (s : State) : s.clearSync.resValid = s.resValid := rfl
@[simp] theorem State.clearSync_resCode (s : State) : s.clearSync.resCode = s.resCode := rfl
@[simp] theorem State.clearSync_inputs (s : State) : s.clearSync.inputs = s.inputs := rfl

/-! `State.setFo` -/

@[simp] theorem State.setFo_inFrame (s : State) (f : FrameOut) : (s.setFo f).inFrame = s.inFrame := rfl
@[simp] theorem State.setFo_cursor (s : State) (f : FrameOut) : (s.setFo f).cursor = s.cursor := rfl
@[simp] theorem State.setFo_prev (s : State) (f : FrameOut) : (s.setFo f).prev = s.prev := rfl
@[simp] theorem State.setFo_buf (s : State) (f : FrameOut) : (s.setFo f).buf = s.buf := rfl
@[simp] theorem State.setFo_fo (s : State) (f : FrameOut) : (s.setFo f).fo = some f := rfl
@[simp] theorem State.setFo_resValid (s : State) (f : FrameOut) : (s.setFo f).resValid = s.resValid := rfl
@[simp] theorem State.setFo_resCode (s : State) (f : FrameOut) : (s.setFo f).resCode = s.resCode := rfl
@[simp] theorem State.setFo_inputs (s : State) (f : FrameOut) : (s.setFo f).inputs = s.inputs := rfl

/-! `State.dropData` -/

@[simp] theorem State.dropData_inFrame (s : State) : s.dropData.inFrame = s.inFrame := rfl
@[simp] theorem State.dropData_cursor (s : State) : s.dropData.cursor = s.cursor := rfl
@[simp] theorem State.dropData_prev (s : State) : s.dropData.prev = s.prev := rfl
@[simp] theorem State.dropData_buf (s : State) : s.dropData.buf = [] := rfl
@[simp] theorem State.dropData_fo (s : State) : s.dropData.fo = none := rfl
@[simp] theorem State.dropData_resValid (s : State) : s.dropData.resValid = s.resValid := rfl
@[simp] theorem State.dropData_resCode (s : State) : s.dropData.resCode = s.resCode := rfl
@[simp] theorem State.dropData_inputs (s : State) : s.dropData.inputs = s.inputs := rfl

/-! `State.report` -/

@[simp] theorem State.report_inFrame (s : State) (r : FrameResult) : (s.report r).inFrame = s.inFrame := rfl
@[simp] theorem State.report_cursor (s : State) (r : FrameResult) : (s.report r).cursor = s.cursor := rfl
@[simp] theorem State.report_prev (s : State) (r : FrameResult) : (s.report r).prev = s.prev := rfl
@[simp] theorem State.report_buf (s : State) (r : FrameResult) : (s.report r).buf = s.buf := rfl
@[simp] theorem State.report_fo (s : State) (r : FrameResult) : (s.report r).fo = s.fo := rfl
@[simp] theorem State.report_resValid (s : State) (r : FrameResult) : (s.report r).resValid = true := rfl
@[simp] theorem State.report_resCode (s : State) (r : FrameResult) : (s.report r).resCode = r.code := rfl
@[simp] theorem State.report_inputs (s : State) (r : FrameResult) : (s.report r).inputs = s.inputs := rfl

/-! `State.noReport` -/

@[simp] theorem State.noReport_inFrame (s : State) : s.noReport.inFrame = s.inFrame := rfl
@[simp] theorem State.noReport_cursor (s : State) : s.noReport.cursor = s.cursor := rfl
@[simp] theorem State.noReport_prev (s : State) : s.noReport.prev = s.prev := rfl
@[simp] theorem State.noReport_buf (s : State) : s.noReport.buf = s.buf := rfl
@[simp] theorem State.noReport_fo (s : State) : s.noReport.fo = s.fo := rfl
@[simp] theorem State.noReport_resValid (s : State) : s.noReport.resValid = false := rfl
@[simp] theorem State.noReport_resCode (s : State) : s.noReport.resCode = 0 := rfl
@[simp] theorem State.noReport_inputs (s : State) : s.noReport.inputs = s.inputs := rfl

/-! `State.takeWord` -/

@[simp] theorem State.takeWord_inFrame (s : State) : s.takeWord.inFrame = s.inFrame := rfl
@[simp] theorem State.takeWord_cursor (s : State) : s.takeWord.cursor = s.cursor := rfl
@[simp] theorem State.takeWord_prev (s : State) : s.takeWord.prev = s.prev := rfl
@[simp] theorem State.takeWord_buf (s : State) : s.takeWord.buf = s.buf := rfl
@[simp] theorem State.takeWord_fo (s : State) : s.takeWord.fo = s.fo := rfl
@[simp] theorem State.takeWord_resValid (s : State) : s.takeWord.resValid = s.resValid := rfl
@[simp] theorem State.takeWord_resCode (s : State) : s.takeWord.resCode = s.resCode := rfl
@[simp] theorem State.takeWord_inputs (s : State) : s.takeWord.inputs = s.inputs.tail := rfl

/-! `State.presentNext` -/

@[simp] theorem State.presentNext_inFrame (s : State) (w : OpWord) : (s.presentNext w).inFrame = s.inFrame := rfl
@[simp] theorem State.presentNext_cursor (s : State) (w : OpWord) : (s.presentNext w).cursor = s.cursor := rfl
@[simp] theorem State.presentNext_prev (s : State) (w : OpWord) : (s.presentNext w).prev = s.prev := rfl
@[simp] theorem State.presentNext_buf (s : State) (w : OpWord) : (s.presentNext w).buf = s.buf := rfl
@[simp] theorem State.presentNext_fo (s : State) (w : OpWord) : (s.presentNext w).fo = s.fo := rfl
@[simp] theorem State.presentNext_resValid (s : State) (w : OpWord) : (s.presentNext w).resValid = s.resValid := rfl
@[simp] theorem State.presentNext_resCode (s : State) (w : OpWord) : (s.presentNext w).resCode = s.resCode := rfl
@[simp] theorem State.presentNext_inputs (s : State) (w : OpWord) : (s.presentNext w).inputs = w :: s.inputs := rfl

end Sys2Proof.Machine
end

