-- ==== Sys2Proof/Laws/Ops.lean ====
section
/-! SUPPORT. One lemma for each shared operation: everything it can do, said once. -/

namespace Sys2Proof.Machine

/-! The cursor -/

theorem nextCount_val (c : Cursor) : (nextCount c).val = if c.val = 12 ∨ c.val = 13 then 0 else c.val + 1 := by
  have := c.isLt
  unfold nextCount
  simp only [Config.ovfLimit]
  split
  · rw [if_pos (by omega)]; rfl
  · rw [if_neg (by omega)]

theorem nextCount_le (c : Cursor) : (nextCount c).val ≤ 12 := by
  have := c.isLt
  rw [nextCount_val]
  split <;> omega

@[simp] theorem cursorAfter_val (i : BufIndex) : (cursorAfter i).val = i.val + 1 := rfl

/-- The cursor names a buffer position exactly when it is in 2..9. -/
theorem framePosition_eq_some {c : Cursor} {i : BufIndex} :
    framePosition c = some i ↔ 2 ≤ c.val ∧ c.val ≤ 9 ∧ i.val = c.val := by
  unfold framePosition
  simp only [Config.sumLo, Config.chkPos]
  split
  · next h =>
    simp only [Option.some.injEq, Fin.ext_iff]
    constructor
    · intro e; exact ⟨h.1, h.2, e.symm⟩
    · intro e; exact e.2.2.symm
  · next h => simp; omega

theorem framePosition_eq_none {c : Cursor} : framePosition c = none ↔ ¬(2 ≤ c.val ∧ c.val ≤ 9) := by
  unfold framePosition
  simp only [Config.sumLo, Config.chkPos]
  split <;> simp_all

/-! The result codes -/

@[simp] theorem FrameResult.code_incomplete : FrameResult.incomplete.code = 0 := rfl
@[simp] theorem FrameResult.code_validFrame : FrameResult.validFrame.code = 1 := rfl
@[simp] theorem FrameResult.code_checksumMismatch : FrameResult.checksumMismatch.code = 2 := rfl

/-! The cases of FEED as record updates -/

theorem State.completesMarker_iff (s : State) (b : Byte) :
    s.completesMarker b = true ↔ s.prev = 0xFF ∧ b = 0x55 := by
  simp [State.completesMarker, Config.mark0, Config.mark1]

theorem feedSearch_eq (b : Byte) (s : State) : feedSearch b s =
    { s with prev := b, cursor := nextCount s.cursor, resValid := true, resCode := 0 } := rfl

theorem feedMarker_eq (b : Byte) (s : State) : feedMarker b s =
    { s with buf := s.buf.write 1 b, inFrame := true, cursor := 2, prev := b, resValid := true, resCode := 0 } := rfl

theorem feedAccumulate_eq (b : Byte) (i : BufIndex) (s : State) : feedAccumulate b i s =
    { s with buf := s.buf.write i b, cursor := cursorAfter i, prev := b, resValid := true, resCode := 0 } := rfl

theorem feedValid_eq (b : Byte) (s : State) : feedValid b s =
    { s with buf := s.buf.write 9 b, inFrame := false, cursor := 0, prev := b,
             fo := some (s.payload.frameOut b), resValid := true, resCode := 1 } := rfl

theorem feedMismatch_eq (b : Byte) (s : State) : feedMismatch b s =
    { s with buf := s.buf.write 9 b, inFrame := false, cursor := 0, prev := 0, resValid := true, resCode := 2 } := rfl

theorem silenceReset_eq (s : State) : silenceReset s =
    { s with inFrame := false, cursor := 0, prev := 0, resValid := false, resCode := 0 } := rfl

/-! What FEED answers in each case -/

theorem feed_of_search {b : Byte} {s : State} (hf : s.inFrame = false) (hm : ¬(s.prev = 0xFF ∧ b = 0x55)) :
    feed b s = .next (feedSearch b s) := by
  have hm' : ¬s.completesMarker b = true := fun e => hm ((s.completesMarker_iff b).mp e)
  unfold feed
  rw [if_neg (by simp [hf]), if_neg hm']

theorem feed_of_marker {b : Byte} {s : State} (hf : s.inFrame = false) (hp : s.prev = 0xFF) (hb : b = 0x55) :
    feed b s = .next (feedMarker b s) := by
  unfold feed
  rw [if_neg (by simp [hf]), if_pos ((s.completesMarker_iff b).mpr ⟨hp, hb⟩)]

theorem feed_of_position {b : Byte} {s : State} {i : BufIndex} (hf : s.inFrame = true)
    (h2 : 2 ≤ s.cursor.val) (h9 : s.cursor.val ≤ 9) (hi : i.val = s.cursor.val) :
    feed b s = .next (feedInFrame b i s) := by
  unfold feed
  rw [if_pos hf, framePosition_eq_some.mpr ⟨h2, h9, hi⟩]

theorem feed_of_broken {b : Byte} {s : State} (hf : s.inFrame = true)
    (h : ¬(2 ≤ s.cursor.val ∧ s.cursor.val ≤ 9)) :
    feed b s = .fault (.invariantFault (.cursorOutOfFrame s.cursor)) := by
  unfold feed
  rw [if_pos hf, framePosition_eq_none.mpr h]

theorem feedInFrame_of_accumulate {b : Byte} {i : BufIndex} {s : State} (h : i.val ≤ 8) :
    feedInFrame b i s = feedAccumulate b i s := by
  unfold feedInFrame
  exact if_neg (by simp only [Config.completeAt]; omega)

theorem feedInFrame_of_valid {b : Byte} {i : BufIndex} {s : State} (h : i.val = 9)
    (hs : s.payload.checksum = b) : feedInFrame b i s = feedValid b s := by
  unfold feedInFrame
  rw [if_pos (by simp only [Config.completeAt]; omega), if_pos hs]

theorem feedInFrame_of_mismatch {b : Byte} {i : BufIndex} {s : State} (h : i.val = 9)
    (hs : s.payload.checksum ≠ b) : feedInFrame b i s = feedMismatch b s := by
  unfold feedInFrame
  rw [if_pos (by simp only [Config.completeAt]; omega), if_neg hs]

/-- EVERYTHING a FEED that answers a next state can have done: one of the five rows of the
transition table (40_feed.md R74) that end in a state, the out-of-frame rows together. -/
theorem feed_next_cases {b : Byte} {s t : State} (h : feed b s = .next t) :
    (s.inFrame = false ∧ ¬(s.prev = 0xFF ∧ b = 0x55) ∧ t = feedSearch b s) ∨
    (s.inFrame = false ∧ s.prev = 0xFF ∧ b = 0x55 ∧ t = feedMarker b s) ∨
    (∃ i : BufIndex, s.inFrame = true ∧ 2 ≤ i.val ∧ i.val ≤ 8 ∧ s.cursor.val = i.val ∧ t = feedAccumulate b i s) ∨
    (s.inFrame = true ∧ s.cursor.val = 9 ∧ s.payload.checksum = b ∧ t = feedValid b s) ∨
    (s.inFrame = true ∧ s.cursor.val = 9 ∧ s.payload.checksum ≠ b ∧ t = feedMismatch b s) := by
  unfold feed at h
  by_cases hf : s.inFrame = true
  · rw [if_pos hf] at h
    split at h
    · next i hi =>
      obtain ⟨h2, h9, hv⟩ := framePosition_eq_some.mp hi
      obtain rfl := Host.Outcome.next.inj h
      simp only [feedInFrame, Config.completeAt]
      by_cases hc : i.val + 1 > 9
      · rw [if_pos hc]
        by_cases hs : s.payload.checksum = b
        · rw [if_pos hs]
          exact .inr (.inr (.inr (.inl ⟨hf, by omega, hs, rfl⟩)))
        · rw [if_neg hs]
          exact .inr (.inr (.inr (.inr ⟨hf, by omega, hs, rfl⟩)))
      · rw [if_neg hc]
        exact .inr (.inr (.inl ⟨i, hf, by omega, by omega, hv.symm, rfl⟩))
    · cases h
  · have hf' : s.inFrame = false := by simpa using hf
    rw [if_neg hf] at h
    by_cases hm : s.completesMarker b = true
    · rw [if_pos hm] at h
      obtain ⟨hp, hb⟩ := (s.completesMarker_iff b).mp hm
      exact .inr (.inl ⟨hf', hp, hb, (Host.Outcome.next.inj h).symm⟩)
    · rw [if_neg hm] at h
      exact .inl ⟨hf', fun e => hm ((s.completesMarker_iff b).mpr e), (Host.Outcome.next.inj h).symm⟩

/-- EVERYTHING an operation that answers a next state can have done, FEED's cases behind
`feed_next_cases`. -/
theorem exec_next_cases {i : Instr} {s t : State} (h : exec i s = .next t) :
    (i = .idle ∧ t = s.noReport) ∨ (∃ b, i = .feed b ∧ feed b s = .next t) ∨
    (i = .sil ∧ t = silenceReset s) ∨ (∃ b, i = .silfeed b ∧ feed b (silenceReset s) = .next t) ∨
    (i = .reset ∧ t = s.clearSync.dropData.noReport) := by
  cases i with
  | idle => exact .inl ⟨rfl, (Host.Outcome.next.inj h).symm⟩
  | feed b => exact .inr (.inl ⟨b, rfl, h⟩)
  | sil => exact .inr (.inr (.inl ⟨rfl, (Host.Outcome.next.inj h).symm⟩))
  | silfeed b => exact .inr (.inr (.inr (.inl ⟨b, rfl, h⟩)))
  | reset => exact .inr (.inr (.inr (.inr ⟨rfl, (Host.Outcome.next.inj h).symm⟩)))

/-! The sum of a payload -/

theorem Payload.sum_le (p : Payload) : p.sum ≤ 1785 := by
  have h2 := p.p2.isLt; have h3 := p.p3.isLt; have h4 := p.p4.isLt; have h5 := p.p5.isLt
  have h6 := p.p6.isLt; have h7 := p.p7.isLt; have h8 := p.p8.isLt
  unfold Payload.sum
  omega

theorem Payload.checksum_toNat (p : Payload) : p.checksum.toNat = p.sum % 256 := by
  simp [Payload.checksum, Config.modulus]

end Sys2Proof.Machine
end

