-- ==== Sys2Proof/Laws/Output.lean ====
section
/-! SUPPORT. One lemma for each view of the outputs: what it shows, and the one code it faults on. -/

namespace Sys2Proof.Machine

theorem State.observation_of_driven {s : State} (h : s.resCode ≠ 3) :
    s.observation = .ok ⟨s.resValid, s.resCode, s.fo⟩ := if_neg h

theorem State.observation_of_reserved {s : State} (h : s.resCode = 3) :
    s.observation = .error (.invariantFault .reservedResCode) := if_pos h

theorem State.outPorts_of_driven {s : State} (h : s.resCode ≠ 3) :
    s.outPorts = .ok ⟨s.resValid, s.resCode, s.fo.map FrameOut.port⟩ := by
  rw [State.outPorts, State.observation_of_driven h]

theorem State.outPorts_of_reserved {s : State} (h : s.resCode = 3) :
    s.outPorts = .error (.invariantFault .reservedResCode) := by
  rw [State.outPorts, State.observation_of_reserved h]

theorem State.readFoPort_of_frame {s : State} {f : FrameOut} (h : s.resCode ≠ 3) (hf : s.fo = some f) :
    s.readFoPort = .ok f.port := by
  rw [State.readFoPort, State.outPorts_of_driven h, hf]
  rfl

theorem State.readFoPort_of_none {s : State} (h : s.resCode ≠ 3) (hf : s.fo = none) :
    s.readFoPort = .error .foUnspecified := by
  rw [State.readFoPort, State.outPorts_of_driven h, hf]
  rfl

end Sys2Proof.Machine
end

