-- ==== Sys2Proof/Laws/PerInstr.lean ====
section
/-! SUPPORT. Facts made one constructor at a time. -/

namespace Sys2Proof.Laws

/-- The encoder writes canonical words only (30_encoding.md R48). -/
def EncodesCanonically.Statement (i : Instr) : Prop := (encode i).canonical = true

theorem canonical_of_inValid {w : OpWord} (hr : w.rst = false) (hv : w.inValid = true) :
    w.canonical = true := by
  simp [OpWord.canonical, hr, hv]

theorem EncodesCanonically.idle : EncodesCanonically.Statement .idle := by
  unfold EncodesCanonically.Statement; decide

theorem EncodesCanonically.feed (b : Byte) : EncodesCanonically.Statement (.feed b) :=
  canonical_of_inValid (strobed_rst _ b) (strobed_inValid _ b)

theorem EncodesCanonically.sil : EncodesCanonically.Statement .sil := by
  unfold EncodesCanonically.Statement; decide

theorem EncodesCanonically.silfeed (b : Byte) : EncodesCanonically.Statement (.silfeed b) :=
  canonical_of_inValid (strobed_rst _ b) (strobed_inValid _ b)

theorem EncodesCanonically.reset : EncodesCanonically.Statement .reset := by
  unfold EncodesCanonically.Statement; decide

end Sys2Proof.Laws
end

