-- ==== Sys2Proof/Machine/Stimulus.lean ====
section
/-! DEFINITION. The stimulus lines of 30_encoding.md R60, as data (their spelling carries no
meaning, decision D17): the five operations, the pseudo-operations FEEDS, FRAME and BADFRAME with
their expansions, and the words they stand for. -/

namespace Sys2Proof.Machine.Stimulus

/-- One line. Byte operands are the numbers as written, `0x` hex or decimal (30_encoding.md R60). -/
inductive Line where
  | idle
  | feed (b : Nat)
  | sil
  | silfeed (b : Nat)
  | reset
  | feeds (bs : List Nat)
  | frame (p2 p3 p4 p5 p6 p7 p8 : Nat)
  | badframe (p2 p3 p4 p5 p6 p7 p8 c : Nat)
  deriving DecidableEq, Repr

/-- A byte operand is 0 to 255 (30_encoding.md R60). -/
def byteOk (n : Nat) : Bool := decide (n ≤ 255)

/-- The operands a line is written with. -/
def Line.operands : Line → List Nat
  | .idle => []
  | .feed b => [b]
  | .sil => []
  | .silfeed b => [b]
  | .reset => []
  | .feeds bs => bs
  | .frame p2 p3 p4 p5 p6 p7 p8 => [p2, p3, p4, p5, p6, p7, p8]
  | .badframe p2 p3 p4 p5 p6 p7 p8 c => [p2, p3, p4, p5, p6, p7, p8, c]

/-- Every operand is a byte, and FEEDS names at least one (30_encoding.md R60). -/
def Line.wellFormed (l : Line) : Bool :=
  l.operands.all byteOk && (match l with | .feeds bs => !bs.isEmpty | _ => true)

/-- The payload that seven operands stand for. -/
def payloadOf (p2 p3 p4 p5 p6 p7 p8 : Nat) : Payload :=
  ⟨BitVec.ofNat 8 p2, BitVec.ofNat 8 p3, BitVec.ofNat 8 p4, BitVec.ofNat 8 p5, BitVec.ofNat 8 p6,
    BitVec.ofNat 8 p7, BitVec.ofNat 8 p8⟩

/-- The operations a well-formed line stands for (30_encoding.md R60). -/
def Line.ops : Line → List Instr
  | .idle => [.idle]
  | .feed b => [.feed (BitVec.ofNat 8 b)]
  | .sil => [.sil]
  | .silfeed b => [.silfeed (BitVec.ofNat 8 b)]
  | .reset => [.reset]
  | .feeds bs => Machine.feeds (bs.map (BitVec.ofNat 8))
  | .frame p2 p3 p4 p5 p6 p7 p8 =>
    let p := payloadOf p2 p3 p4 p5 p6 p7 p8
    Machine.feeds (frameBytes p p.checksum)
  | .badframe p2 p3 p4 p5 p6 p7 p8 c =>
    Machine.feeds (frameBytes (payloadOf p2 p3 p4 p5 p6 p7 p8) (BitVec.ofNat 8 c))

/-- A list of lines as operations; none where a line is not well formed. -/
def expand : List Line → Option (List Instr)
  | [] => some []
  | l :: rest => if l.wellFormed then (expand rest).map (l.ops ++ ·) else none

/-- A list of lines as operation words (30_encoding.md R48, R60). -/
def assemble (ls : List Line) : Option (List OpWord) := (expand ls).map (·.map encode)

end Sys2Proof.Machine.Stimulus
end

