-- ==== Sys2Proof/Tests/Slice0.lean ====
section
/-! SUPPORT. The model's own tests. Expected values are the spec's: the decode vectors, the examples
of the rules and the checksum table of 95_test_vectors.md. Each `witness_` theorem shows a state and
operands that meet the hypotheses of the statement it names. -/

namespace Sys2Proof.Tests

open Sys2Proof.Machine

/-- `S{f,c,p}` of 40_feed.md, with a buffer; everything else as RESET leaves it. -/
def st (f : Bool) (c : Cursor) (p : Byte) (m : Memory) : State :=
  { State.reset with inFrame := f, cursor := c, prev := p, buf := m }

/-- The payload of 95_test_vectors.md V0a. -/
def p0 : Payload := ⟨0x80, 0x01, 0x80, 0x02, 0x80, 0x04, 0x80⟩

/-- The buffer with the marker byte and that payload in it. -/
def b0 : Memory :=
  [(1, 0x55), (2, 0x80), (3, 0x01), (4, 0x80), (5, 0x02), (6, 0x80), (7, 0x04), (8, 0x80)]

/-- The frame output of 95_test_vectors.md V1. -/
def f0 : FrameOut := ⟨0x80, 0x01, 0x80, 0x02, 0x80, 0x04, 0x80, 0x07⟩

/-- `S{1,9,0x80}` with that payload: the checksum byte is awaited (40_feed.md R65, R66). -/
def atChecksum : State := st true 9 0x80 b0

/-! ## Well-formedness: an ill-formed term for each check that can refuse one

`Instr.wellFormed` has none: no operation is illegal (30_encoding.md R51). -/

theorem test_wellFormed_all : Instr.wellFormed .idle && Instr.wellFormed (.feed 0xFF) && Instr.wellFormed .sil &&
    Instr.wellFormed (.silfeed 0x00) && Instr.wellFormed .reset := by decide

theorem test_canonical_refuses_dontcare_byte :
    OpWord.canonical 0x0AB = false ∧ OpWord.canonical 0x2CD = false ∧ OpWord.canonical 0x455 = false := by decide

theorem test_canonical_refuses_dontcare_strobes :
    OpWord.canonical 0x500 = false ∧ OpWord.canonical 0x600 = false := by decide

theorem test_memory_wf_refuses :
    Memory.wf [(3, 0x00), (1, 0x00)] = false ∧ Memory.wf [(3, 0x00), (3, 0x01)] = false ∧
      Memory.wf [(10, 0x00)] = false ∧ Memory.wf b0 = true := by decide

theorem test_line_wf_refuses :
    Stimulus.Line.wellFormed (.feed 256) = false ∧ Stimulus.Line.wellFormed (.silfeed 256) = false ∧
      Stimulus.Line.wellFormed (.feeds []) = false ∧
      Stimulus.Line.wellFormed (.frame 0 0 0 0 0 0 256) = false ∧
      Stimulus.Line.wellFormed (.badframe 0 0 0 0 0 0 0 255) = true := by decide

theorem test_inv_refuses_low_cursor : ¬(st true 1 0x55 [(1, 0x55)]).Inv := by decide
theorem test_inv_refuses_high_cursor : ¬(st true 10 0x80 b0).Inv := by decide
theorem test_inv_refuses_count : ¬(st false 13 0x00 []).Inv := by decide
theorem test_inv_refuses_unwritten : ¬(st true 3 0x80 [(1, 0x55)]).Inv := by decide
theorem test_inv_refuses_entry_zero : ¬(st false 0 0x00 [(0, 0x00)]).Inv := by decide
theorem test_inv_refuses_code : ¬(State.Inv { State.reset with resCode := 3 }) := by decide
theorem test_inv_refuses_bad_frame :
    ¬(State.Inv { State.reset with fo := some { f0 with chk := 0x08 } }) := by decide

/-! ## Decoding: words written out bit by bit from 30_encoding.md R47, R48 -/

theorem test_decode_idle : decode 0b00010101011 = .idle := by decide
theorem test_decode_feed : decode 0b00110101011 = .feed 0xAB := by decide
theorem test_decode_sil : decode 0b01011001101 = .sil := by decide
theorem test_decode_silfeed : decode 0b01111001101 = .silfeed 0xCD := by decide
theorem test_decode_reset : decode 0b10000000000 = .reset ∧ decode 0b10111111111 = .reset ∧
    decode 0b11010101010 = .reset ∧ decode 0b11111111111 = .reset := by decide

theorem test_encode : encode .idle = 0x000 ∧ encode (.feed 0x55) = 0x155 ∧ encode .sil = 0x200 ∧
    encode (.silfeed 0x55) = 0x355 ∧ encode .reset = 0x400 := by decide

theorem test_table_word : decodeTableWord 11 0x3CD = some (.silfeed 0xCD) ∧
    decodeTableWord 16 0x155 = some (.feed 0x55) ∧ decodeTableWord 16 0x800 = none := by decide

/-! ## One step of each operation: the examples of the rules -/

theorem test_idle : exec .idle (st true 5 0x80 b0) = .next (st true 5 0x80 b0) := by rfl

theorem test_idle_drops_result :
    exec .idle { State.reset with resValid := true, resCode := 2 } = .next State.reset := by rfl

theorem test_feed_search : exec (.feed 0xFF) (st false 3 0x12 []) =
    .next { st false 4 0xFF [] with resValid := true } := by rfl

theorem test_feed_marker : exec (.feed 0x55) (st false 5 0xFF []) =
    .next { st true 2 0x55 [(1, 0x55)] with resValid := true } := by rfl

theorem test_feed_accumulate : exec (.feed 0x80) (st true 2 0x55 [(1, 0x55)]) =
    .next { st true 3 0x80 [(1, 0x55), (2, 0x80)] with resValid := true } := by rfl

theorem test_feed_valid : exec (.feed 0x07) atChecksum =
    .next { st false 0 0x07 (b0 ++ [(9, 0x07)]) with fo := some f0, resValid := true, resCode := 1 } := by rfl

theorem test_feed_mismatch : exec (.feed 0x08) { atChecksum with fo := some f0 } =
    .next { st false 0 0x00 (b0 ++ [(9, 0x08)]) with fo := some f0, resValid := true, resCode := 2 } := by rfl

theorem test_feed_overflow : exec (.feed 0xFF) (st false 12 0x00 []) =
    .next { st false 0 0xFF [] with resValid := true } := by rfl

theorem test_feed_marker_at_overflow : exec (.feed 0x55) (st false 12 0xFF []) =
    .next { st true 2 0x55 [(1, 0x55)] with resValid := true } := by rfl

theorem test_feed_unreachable : exec (.feed 0x00) (st true 0 0x00 []) =
    .fault (.invariantFault (.cursorOutOfFrame 0)) := by rfl

theorem test_sil : exec .sil { st true 6 0x02 b0 with fo := some f0 } =
    .next { st false 0 0x00 b0 with fo := some f0 } := by rfl

theorem test_silfeed : exec (.silfeed 0xFF) (st true 4 0x80 b0) =
    .next { st false 1 0xFF b0 with resValid := true } := by rfl

theorem test_silfeed_breaks_marker : exec (.silfeed 0x55) (st false 1 0xFF []) =
    .next { st false 1 0x55 [] with resValid := true } := by rfl

theorem test_reset : exec .reset { atChecksum with fo := some f0, resValid := true, resCode := 1 } =
    .next State.reset := by rfl

/-! ## The interface -/

theorem test_first_feed_after_reset : step (State.reset.withFetchWord 11 0x1FF) =
    .next { st false 1 0xFF [] with resValid := true } := by rfl

theorem test_reset_drops_byte : step { st false 1 0xFF [] with inputs := [0x455, 0x155] } =
    .next { State.reset with inputs := [0x155] } := by rfl

theorem test_config_positions : Config.payloadIndex 0 = 2 ∧ (Config.payloadIndex 6).val = Config.sumHi ∧
    Config.ovfLimit + 2 = 14 ∧ Config.frameLen = (frameBytes p0 0x07).length ∧ Config.bufLen = 10 := by decide

theorem test_checksum_table : p0.checksum = 0x07 ∧
    Payload.checksum ⟨0xFF, 0xFF, 0xFF, 0xFF, 0xFF, 0xFF, 0xFF⟩ = 0xF9 ∧
    Payload.checksum ⟨0x80, 0x00, 0x7F, 0x00, 0x00, 0x00, 0x01⟩ = 0x00 ∧
    Payload.checksum ⟨0xFF, 0x55, 0x00, 0x00, 0x00, 0x00, 0x00⟩ = 0x54 := by decide

theorem test_fo_port : f0.port = 0x0780048002800180 := by decide

theorem test_fo_views : f0.positions = [0x55, 0x80, 0x01, 0x80, 0x02, 0x80, 0x04, 0x80, 0x07] ∧
    f0.buttons = [0x01, 0x02, 0x04] := by decide

theorem test_out_ports : State.outPorts { State.reset with fo := some f0, resValid := true, resCode := 1 } =
    .ok ⟨true, 1, some 0x0780048002800180⟩ ∧ State.outPorts State.reset = .ok ⟨false, 0, none⟩ := ⟨rfl, rfl⟩

theorem test_out_ports_reserved_code :
    State.outPorts { State.reset with fo := some f0, resCode := 3 } = .error (.invariantFault .reservedResCode) ∧
    State.outPorts { State.reset with resCode := 3 } = .error (.invariantFault .reservedResCode) := ⟨rfl, rfl⟩

theorem test_read_fo_port : State.readFoPort State.reset = .error .foUnspecified ∧
    State.readFoPort { State.reset with fo := some f0 } = .ok 0x0780048002800180 := ⟨rfl, rfl⟩

theorem test_read_fo : State.reset.readFo = .error .foUnspecified ∧
    State.readFo { State.reset with fo := some f0 } = .ok f0 := ⟨rfl, rfl⟩

theorem test_read_result : State.readResult { State.reset with resValid := true, resCode := 2 } =
    .ok (some .checksumMismatch) ∧
    State.readResult { State.reset with resCode := 3 } = .error (.invariantFault .reservedResCode) := ⟨rfl, rfl⟩

theorem test_frame_line : Stimulus.assemble [.frame 0x80 1 0x80 2 0x80 4 0x80] =
    some [0x1FF, 0x155, 0x180, 0x101, 0x180, 0x102, 0x180, 0x104, 0x180, 0x107] := by decide

/-! ## Witnesses: the hypotheses of each statement can be met, clause by clause -/

theorem witness_CanonicalWordsRoundTrip : OpWord.canonical 0x1AB = true ∧ OpWord.canonical 0x400 = true := by decide

theorem witness_StrobesSelectOperation :
    (∃ p : InPorts, p.rst = false ∧ p.sil = false ∧ p.inValid = false) ∧
    (∃ p : InPorts, p.rst = false ∧ p.sil = false ∧ p.inValid = true) ∧
    (∃ p : InPorts, p.rst = false ∧ p.sil = true ∧ p.inValid = false) ∧
    (∃ p : InPorts, p.rst = false ∧ p.sil = true ∧ p.inValid = true) ∧ (∃ p : InPorts, p.rst = true) :=
  ⟨⟨⟨false, false, false, 0xAB⟩, by decide⟩, ⟨⟨false, false, true, 0xAB⟩, by decide⟩,
    ⟨⟨false, true, false, 0xCD⟩, by decide⟩, ⟨⟨false, true, true, 0xCD⟩, by decide⟩,
    ⟨⟨true, true, true, 0xFF⟩, by decide⟩⟩

theorem witness_DecodeMatchesOpcodeTable : (0x0AB : OpWord) &&& 0x700 = 0x000 ∧ (0x1AB : OpWord) &&& 0x700 = 0x100 ∧
    (0x2CD : OpWord) &&& 0x700 = 0x200 ∧ (0x3CD : OpWord) &&& 0x700 = 0x300 ∧ (0x7FF : OpWord) &&& 0x400 = 0x400 := by decide

theorem witness_StepRunsDecodedInstruction :
    State.inputs { State.reset with inputs := [0x1FF, 0x155] } = 0x1FF :: [0x155] ∧ decode 0x1FF = .feed 0xFF := by decide

theorem witness_StepWithoutWordIsIdle : State.reset.inputs = [] := by decide

theorem witness_StepTakesOneWord : step { State.reset with inputs := [0x200, 0x1FF] } =
    .next { State.reset with inputs := [0x1FF] } := by rfl

/-- One word for each clause of StepFollowsWordBits; each is the head of a state's `inputs`. -/
theorem witness_StepFollowsWordBits :
    (0x400 : OpWord).getLsbD 10 = true ∧
    ((0x0AB : OpWord).getLsbD 10 = false ∧ (0x0AB : OpWord).getLsbD 9 = false ∧ (0x0AB : OpWord).getLsbD 8 = false) ∧
    ((0x1AB : OpWord).getLsbD 10 = false ∧ (0x1AB : OpWord).getLsbD 9 = false ∧ (0x1AB : OpWord).getLsbD 8 = true) ∧
    ((0x2CD : OpWord).getLsbD 10 = false ∧ (0x2CD : OpWord).getLsbD 9 = true ∧ (0x2CD : OpWord).getLsbD 8 = false) ∧
    ((0x3CD : OpWord).getLsbD 10 = false ∧ (0x3CD : OpWord).getLsbD 9 = true ∧ (0x3CD : OpWord).getLsbD 8 = true) ∧
    (∀ w : OpWord, State.inputs { State.reset with inputs := [w] } = w :: []) :=
  ⟨by decide, by decide, by decide, by decide, by decide, fun _ => rfl⟩

theorem witness_StrobePriority :
    State.inputs { atChecksum with inputs := [InPorts.word ⟨true, true, true, 0x07⟩] } =
      InPorts.word ⟨true, true, true, 0x07⟩ :: [] ∧
    State.inputs { atChecksum with inputs := [InPorts.word ⟨false, true, true, 0x07⟩] } =
      InPorts.word ⟨false, true, true, 0x07⟩ :: [] := ⟨rfl, rfl⟩

theorem witness_ExecIgnoresInputs : exec .sil State.reset = .next State.reset := by rfl

theorem witness_SilenceAndResetIdempotent :
    exec .sil atChecksum = .next (st false 0 0x00 b0) ∧ exec .reset atChecksum = .next State.reset := ⟨rfl, rfl⟩

theorem witness_FeedSearchResult :
    ((st false 11 0xFF []).inFrame = false ∧ ¬((st false 11 0xFF []).prev = 0xFF ∧ (0x54 : Byte) = 0x55)) ∧
    ((st false 12 0x00 []).inFrame = false ∧ ¬((st false 12 0x00 []).prev = 0xFF ∧ (0x55 : Byte) = 0x55)) := by decide

theorem witness_OverflowResetsOnlyCursor : (st false 12 0x00 []).inFrame = false ∧
    ¬((st false 12 0x00 []).prev = 0xFF ∧ (0xFF : Byte) = 0x55) ∧ (st false 12 0x00 []).cursor.val + 1 > 12 := by decide

theorem witness_FeedMarkerResult : (st false 12 0xFF []).inFrame = false ∧ (st false 12 0xFF []).prev = 0xFF := by decide

theorem witness_FeedAccumulateResult :
    ((st true 2 0x55 []).inFrame = true ∧ 2 ≤ (st true 2 0x55 []).cursor.val ∧ (st true 2 0x55 []).cursor.val ≤ 8) ∧
    ((st true 8 0x04 b0).inFrame = true ∧ 2 ≤ (st true 8 0x04 b0).cursor.val ∧ (st true 8 0x04 b0).cursor.val ≤ 8) := by decide

theorem witness_FeedValidFrameResult : atChecksum.inFrame = true ∧ atChecksum.cursor.val = 9 ∧
    (0x07 : Byte).toNat = ((atChecksum.bufByte 2).toNat + (atChecksum.bufByte 3).toNat + (atChecksum.bufByte 4).toNat +
      (atChecksum.bufByte 5).toNat + (atChecksum.bufByte 6).toNat + (atChecksum.bufByte 7).toNat +
      (atChecksum.bufByte 8).toNat) % 256 := by decide

theorem witness_FeedMismatchResult : atChecksum.inFrame = true ∧ atChecksum.cursor.val = 9 ∧
    (0x08 : Byte).toNat ≠ ((atChecksum.bufByte 2).toNat + (atChecksum.bufByte 3).toNat + (atChecksum.bufByte 4).toNat +
      (atChecksum.bufByte 5).toNat + (atChecksum.bufByte 6).toNat + (atChecksum.bufByte 7).toNat +
      (atChecksum.bufByte 8).toNat) % 256 := by decide

theorem witness_FeedFaultsOnBrokenCursor :
    ((st true 1 0x55 []).inFrame = true ∧ (st true 1 0x55 []).cursor.val < 2) ∧
    ((st true 10 0x80 b0).inFrame = true ∧ 9 < (st true 10 0x80 b0).cursor.val) := by decide

theorem witness_ChecksumIsWrappingSumInAnyOrder :
    ([0x01, 0x80, 0x80, 0x02, 0x80, 0x04, 0x80] : List Byte).Perm p0.bytes := by decide

theorem witness_SingleByteChangeIsDetected :
    (∀ j, j ≠ 6 → p0.bytes[j]? = (Payload.bytes { p0 with p8 := 0x81 })[j]?) ∧
    p0.bytes[6]? ≠ (Payload.bytes { p0 with p8 := 0x81 })[6]? := by
  refine ⟨fun j hj => ?_, by decide⟩
  match j, hj with
  | 0, _ => rfl
  | 1, _ => rfl
  | 2, _ => rfl
  | 3, _ => rfl
  | 4, _ => rfl
  | 5, _ => rfl
  | 6, h => exact absurd rfl h
  | _ + 7, _ => rfl

theorem witness_StepKeepsInv : State.Inv { atChecksum with inputs := [0x107] } ∧
    step { atChecksum with inputs := [0x107] } =
      .next { st false 0 0x07 (b0 ++ [(9, 0x07)]) with fo := some f0, resValid := true, resCode := 1 } :=
  ⟨by decide, rfl⟩

theorem witness_StepKeepsBufferCanonical : Memory.wf [] = true ∧
    step { st false 0 0xFF [] with inputs := [0x155] } =
      .next { st true 2 0x55 [(1, 0x55)] with resValid := true } := ⟨by decide, rfl⟩

theorem witness_InvStatesNeverStop : atChecksum.Inv := by decide

theorem witness_ResultStrobe : exec .idle State.reset = .next State.reset ∧ yieldsResult .idle = false := ⟨rfl, rfl⟩

theorem witness_OneResultPerFedByte : results [.feed 0x00, .idle] State.reset = .next [⟨true, 0, none⟩] := by rfl

theorem witness_ObservingReservedCodeFaults :
    State.resCode { State.reset with resCode := 3 } = 3 ∧ State.reset.resCode ≠ 3 := by decide

theorem witness_FrameOutputWriters :
    (exec (.feed 0x07) atChecksum =
      .next { st false 0 0x07 (b0 ++ [(9, 0x07)]) with fo := some f0, resValid := true, resCode := 1 } ∧
      some f0 ≠ atChecksum.fo) ∧
    (exec .reset { State.reset with fo := some f0 } = .next State.reset ∧ State.reset.fo ≠ some f0) :=
  ⟨⟨rfl, by decide⟩, rfl, by decide⟩

theorem witness_InFrameWriters :
    (exec (.feed 0x55) (st false 0 0xFF []) = .next { st true 2 0x55 [(1, 0x55)] with resValid := true } ∧
      (st false 0 0xFF []).inFrame = false) ∧
    (exec .sil atChecksum = .next (st false 0 0x00 b0) ∧ atChecksum.inFrame = true) :=
  ⟨⟨rfl, rfl⟩, rfl, rfl⟩

theorem witness_PrevWriters : exec (.feed 0x12) State.reset = .next { st false 1 0x12 [] with resValid := true } ∧
    exec (.silfeed 0x12) State.reset = .next { st false 1 0x12 [] with resValid := true } ∧
    exec .sil State.reset = .next State.reset ∧ exec .reset State.reset = .next State.reset ∧
    exec .idle State.reset = .next State.reset := ⟨rfl, rfl, rfl, rfl, rfl⟩

theorem witness_EntryZeroNeverWritten : exec (.feed 0x55) (st false 0 0xFF []) =
    .next { st true 2 0x55 [(1, 0x55)] with resValid := true } ∧ exec .reset atChecksum = .next State.reset := ⟨rfl, rfl⟩

theorem witness_SilenceAndResetBreakMarker : exec .sil (st false 1 0xFF []) = .next State.reset := by rfl

theorem witness_FrameOutputUnreadableBeforeValidFrame :
    observations [.reset, .feed 0x00] atChecksum = .next [⟨false, 0, none⟩, ⟨true, 0, none⟩] ∧
    (∀ o ∈ ([⟨false, 0, none⟩, ⟨true, 0, none⟩] : List Observation), o.resCode ≠ 1) ∧
    runOps [.reset, .feed 0x00] atChecksum = .next { st false 1 0x00 [] with resValid := true } :=
  ⟨rfl, by decide, rfl⟩

theorem witness_CollectedBytesInOrder : (st true 2 0x55 [(1, 0x55)]).inFrame = true ∧
    (st true 2 0x55 [(1, 0x55)]).cursor.val = 2 ∧ p0.bytes.length ≤ 7 := by decide

theorem witness_CorrectFrameYieldsOneValidFrame : State.reset.inFrame = false ∧
    ([.feed 0xFF, .idle, .feed 0x55, .feed 0x80, .feed 0x01, .feed 0x80, .feed 0x02, .feed 0x80, .feed 0x04, .feed 0x80,
      .feed 0x07] : List Instr).filter (· ≠ .idle) = feeds (frameBytes p0 p0.checksum) := by decide

theorem witness_RecoveryWithinOneFrame : atChecksum.inFrame = true ∧ atChecksum.cursor.val = 9 ∧
    (0xFF : Byte) ≠ atChecksum.payload.checksum ∧ noMarkerPair [0x55, 0x80, 0xFF] = true ∧ noMarkerPair [] = true := by decide

theorem witness_SharedMarkerByte : State.reset.inFrame = false ∧
    Payload.checksum ⟨0x80, 0x00, 0x7F, 0x00, 0x00, 0x00, 0x00⟩ = 0xFF := by decide

theorem witness_OutOfFrameCountUnobservable : (st false 12 0xFF []).inFrame = false := by decide

theorem witness_OutOfFrameBufferUnobservable : (st false 0 0xFF b0).inFrame = false := by decide

theorem witness_PrevOtherThanMarkerUnobservable : (st false 1 0xFE []).prev ≠ 0xFF ∧ (0x00 : Byte) ≠ 0xFF := by decide

theorem witness_FrameOutputHeldForEightFeeds : (st false 0 0xFF []).inFrame = false ∧
    Instr.reset ∉ Instr.sil :: Instr.feed 0x55 :: feeds p0.bytes ∧
    (Instr.sil :: Instr.feed 0x55 :: feeds p0.bytes).countP yieldsResult ≤ 8 := by decide

theorem witness_InstancesCommute : (0 : Fin 2) ≠ 1 ∧
    stepInstance (0 : Fin 2) #v[{ State.reset with inputs := [0x1FF] }, State.reset] =
      .next #v[{ st false 1 0xFF [] with resValid := true }, State.reset] ∧
    stepInstance (1 : Fin 2) #v[{ State.reset with inputs := [0x1FF] }, State.reset] =
      .next #v[{ State.reset with inputs := [0x1FF] }, State.reset] :=
  ⟨by decide, rfl, rfl⟩

theorem witness_OtherInstancesUnchanged : (0 : Fin 2) ≠ 1 ∧
    stepInstance (0 : Fin 2) #v[State.reset, atChecksum] = .next #v[State.reset, atChecksum] :=
  ⟨by decide, rfl⟩

theorem witness_OutputPortsShowRegisters :
    (exec (.feed 0x07) atChecksum =
      .next { st false 0 0x07 (b0 ++ [(9, 0x07)]) with fo := some f0, resValid := true, resCode := 1 } ∧
      State.fo { st false 0 0x07 (b0 ++ [(9, 0x07)]) with fo := some f0, resValid := true, resCode := 1 } = some f0) ∧
    (exec .idle State.reset = .next State.reset ∧ State.reset.fo = none) := ⟨⟨rfl, rfl⟩, rfl, rfl⟩

theorem witness_PortsWithReservedCodeFault : State.resCode { State.reset with fo := some f0, resCode := 3 } = 3 ∧
    State.resCode { State.reset with resCode := 3 } = 3 := by decide

end Sys2Proof.Tests
end

section
/-! PROOFS. The state after RESET (10_state.md R28). -/

namespace Sys2Proof.Machine

/-- RESET leaves nothing listed in the buffer, which is how the model holds UNSPECIFIED (10_state.md
R28, R31; log entry 1). -/
@[simp] theorem State.reset_buf : State.reset.buf = [] := rfl

/-- Settles O17: the registers and `fo` by the reset state's own fields, and every buffer entry
because reading an empty memory gives no value. -/
theorem resetStateValues : Obligations.ResetStateValues := by
  unfold Obligations.ResetStateValues
  have no_entry (k : BufIndex) : State.reset.buf.read k = none := by
    rw [State.reset_buf, Memory.read_nil]
  exact ⟨rfl, rfl, rfl, no_entry, rfl, rfl, rfl⟩

end Sys2Proof.Machine
end

section
/-! PROOFS. The operation word on the ports (30_encoding.md R46 to R50): the fields of the word that
ports show, the operation that each row of R47's table selects, and the step on a presented word. -/

namespace Sys2Proof

/-! The ports and their word agree, field by field -/

@[simp] theorem InPorts.word_rst (p : InPorts) : p.word.rst = p.rst := by
  simp only [InPorts.word, strobed_rst, BitVec.getLsbD_append, BitVec.getLsbD_ofBool]
  simp

@[simp] theorem InPorts.word_sil (p : InPorts) : p.word.sil = p.sil := by
  simp only [InPorts.word, strobed_sil, BitVec.getLsbD_append, BitVec.getLsbD_ofBool]
  simp

@[simp] theorem InPorts.word_inValid (p : InPorts) : p.word.inValid = p.inValid := by
  simp only [InPorts.word, strobed_inValid, BitVec.getLsbD_append, BitVec.getLsbD_ofBool]
  simp

@[simp] theorem InPorts.word_inByte (p : InPorts) : p.word.inByte = p.inByte :=
  strobed_inByte _ _

/-! The rows of R47's table: only the strobes that a row names are read -/

theorem decode_of_idle_strobes {w : OpWord} (hr : w.rst = false) (hs : w.sil = false)
    (hv : w.inValid = false) : decode w = .idle := by
  simp only [decode, hr, hs, hv]

theorem decode_of_feed_strobes {w : OpWord} (hr : w.rst = false) (hs : w.sil = false)
    (hv : w.inValid = true) : decode w = .feed w.inByte := by
  simp only [decode, hr, hs, hv]

theorem decode_of_sil_strobes {w : OpWord} (hr : w.rst = false) (hs : w.sil = true)
    (hv : w.inValid = false) : decode w = .sil := by
  simp only [decode, hr, hs, hv]

theorem decode_of_silfeed_strobes {w : OpWord} (hr : w.rst = false) (hs : w.sil = true)
    (hv : w.inValid = true) : decode w = .silfeed w.inByte := by
  simp only [decode, hr, hs, hv]

theorem decode_of_rst {w : OpWord} (hr : w.rst = true) : decode w = .reset := by
  simp only [decode, hr]

/-- Settles O3: read on the fields of the ports' word, the five clauses are the rows of R47's table. -/
theorem strobesSelectOperation : Obligations.StrobesSelectOperation := by
  unfold Obligations.StrobesSelectOperation
  intro p
  rw [← p.word_rst, ← p.word_sil, ← p.word_inValid, ← p.word_inByte]
  exact ⟨decode_of_idle_strobes, decode_of_feed_strobes, decode_of_sil_strobes,
    decode_of_silfeed_strobes, decode_of_rst⟩

end Sys2Proof

namespace Sys2Proof.Machine

/-- A step on a presented word runs the operation it selects, with that word taken (41_control.md R79;
log entry 2). -/
theorem step_of_presented {s : State} {w : OpWord} {rest : List OpWord} (h : s.inputs = w :: rest) :
    step s = exec (decode w) { s with inputs := rest } := by
  simp only [step, State.presentedWord, State.takeWord, h, List.headD_cons, List.tail_cons]

theorem exec_sil_eq (s : State) : exec .sil s = .next (silenceReset s) := rfl

/-- SILFEED is FEED on the state that SIL leaves (41_control.md R77). -/
theorem exec_silfeed_eq (b : Byte) (s : State) :
    exec (.silfeed b) s = exec (.feed b) (silenceReset s) := rfl

/-- RESET leaves the reset state, with the words to come (41_control.md R78). -/
theorem exec_reset_eq (s : State) :
    exec .reset s = .next { State.reset with inputs := s.inputs } := rfl

/-- Settles O10: with `rst` the word selects RESET, whose result keeps only the words to come; with
`sil` and `in_valid` it selects SILFEED, which is FEED on the state that SIL leaves. -/
theorem strobePriority : Obligations.StrobePriority := by
  unfold Obligations.StrobePriority
  intro s p rest h
  obtain ⟨-, -, -, decode_silfeed, decode_reset⟩ := strobesSelectOperation p
  refine ⟨fun hr => ?rst_overrides, fun hr hs hv => ?sil_before_byte⟩
  case rst_overrides =>
    rw [step_of_presented h, decode_reset hr, exec_reset_eq]
    rfl
  case sil_before_byte =>
    refine ⟨_, exec_sil_eq _, ?_⟩
    rw [step_of_presented h, decode_silfeed hr hs hv, exec_silfeed_eq]

end Sys2Proof.Machine
end

section
/-! PROOFS. The six cases of FEED as the instruction runs them (40_feed.md R62 to R67): for each row
of the transition table (R74) the state that `exec` answers with, then the statements read off it. -/

namespace Sys2Proof.Machine

/-! The operands of the cases: the overflow guard and the checksum check -/

/-- The out-of-frame count in the words of the overflow guard (40_feed.md R67). -/
theorem nextCount_val_of_guard (c : Cursor) :
    (nextCount c).val = if c.val + 1 > 12 then 0 else c.val + 1 := by
  have past_limit : c.val + 1 > 12 ↔ c.val = 12 ∨ c.val = 13 := by omega
  simp only [nextCount_val, past_limit]

/-- A byte passes the checksum check exactly when it is the payload's sum modulo 256 (40_feed.md
R68). -/
theorem Payload.checksum_eq_iff (p : Payload) (b : Byte) : p.checksum = b ↔ b.toNat = p.sum % 256 := by
  rw [← BitVec.toNat_inj, p.checksum_toNat, eq_comm]

/-- The sum that the checksum check takes is over the buffer's entries 2 to 8 (40_feed.md R61). -/
theorem State.payload_sum (s : State) : s.payload.sum =
    (s.bufByte 2).toNat + (s.bufByte 3).toNat + (s.bufByte 4).toNat + (s.bufByte 5).toNat +
      (s.bufByte 6).toNat + (s.bufByte 7).toNat + (s.bufByte 8).toNat := rfl

/-! What the FEED instruction answers in each case -/

theorem exec_feed_eq (b : Byte) (s : State) : exec (.feed b) s = feed b s := rfl

theorem exec_feed_of_search {b : Byte} {s : State} (hf : s.inFrame = false)
    (hm : ¬(s.prev = 0xFF ∧ b = 0x55)) : exec (.feed b) s =
      .next { s with prev := b, cursor := nextCount s.cursor, resValid := true, resCode := 0 } := by
  rw [exec_feed_eq, feed_of_search hf hm, feedSearch_eq]

theorem exec_feed_of_marker {s : State} (hf : s.inFrame = false) (hp : s.prev = 0xFF) :
    exec (.feed 0x55) s = .next { s with
      buf := s.buf.write 1 0x55, inFrame := true, cursor := 2, prev := 0x55,
      resValid := true, resCode := 0 } := by
  rw [exec_feed_eq, feed_of_marker hf hp rfl, feedMarker_eq]

theorem exec_feed_of_accumulate {b : Byte} {i : BufIndex} {s : State} (hf : s.inFrame = true)
    (hi : i.val = s.cursor.val) (h2 : 2 ≤ s.cursor.val) (h8 : s.cursor.val ≤ 8) :
    exec (.feed b) s = .next { s with
      buf := s.buf.write i b, cursor := cursorAfter i, prev := b, resValid := true, resCode := 0 } := by
  rw [exec_feed_eq, feed_of_position hf h2 (by omega) hi, feedInFrame_of_accumulate (by omega),
    feedAccumulate_eq]

/-- At the checksum position the byte completes the frame (40_feed.md R61). -/
theorem exec_feed_of_checksum_position {b : Byte} {s : State} (hf : s.inFrame = true)
    (hc : s.cursor.val = 9) : exec (.feed b) s = .next (feedInFrame b 9 s) := by
  rw [exec_feed_eq, feed_of_position (i := 9) hf (by omega) (by omega) hc.symm]

theorem exec_feed_of_valid {b : Byte} {s : State} (hf : s.inFrame = true) (hc : s.cursor.val = 9)
    (hs : s.payload.checksum = b) : exec (.feed b) s = .next { s with
      buf := s.buf.write 9 b, inFrame := false, cursor := 0, prev := b,
      fo := some (s.payload.frameOut b), resValid := true, resCode := 1 } := by
  rw [exec_feed_of_checksum_position hf hc, feedInFrame_of_valid rfl hs, feedValid_eq]

theorem exec_feed_of_mismatch {b : Byte} {s : State} (hf : s.inFrame = true) (hc : s.cursor.val = 9)
    (hs : s.payload.checksum ≠ b) : exec (.feed b) s = .next { s with
      buf := s.buf.write 9 b, inFrame := false, cursor := 0, prev := 0,
      resValid := true, resCode := 2 } := by
  rw [exec_feed_of_checksum_position hf hc, feedInFrame_of_mismatch rfl hs, feedMismatch_eq]

/-! Out of a frame -/

/-- Settles O19: the search case, with its count read in the words of the overflow guard. -/
theorem feedSearchResult : Obligations.FeedSearchResult := by
  unfold Obligations.FeedSearchResult
  intro s b hf hm
  exact ⟨nextCount s.cursor, nextCount_val_of_guard s.cursor, exec_feed_of_search hf hm⟩

/-- Settles O20: the search case (O19) where the guard holds, so that the count is 0. -/
theorem overflowResetsOnlyCursor : Obligations.OverflowResetsOnlyCursor := by
  unfold Obligations.OverflowResetsOnlyCursor
  intro s b hf hm hover
  obtain ⟨c, hc, hexec⟩ := feedSearchResult s b hf hm
  have count_zero : c = 0 := Fin.ext (hc.trans (if_pos hover))
  rw [hexec, count_zero]

/-- Settles O21: the marker case; its one store is at entry 1. -/
theorem feedMarkerResult : Obligations.FeedMarkerResult := by
  unfold Obligations.FeedMarkerResult
  intro s hf hp
  exact ⟨s.buf.write 1 0x55, fun k => s.buf.read_write 1 k 0x55, exec_feed_of_marker hf hp⟩

/-! Inside a frame -/

/-- Settles O22: the accumulation case at the buffer position that the cursor names. -/
theorem feedAccumulateResult : Obligations.FeedAccumulateResult := by
  unfold Obligations.FeedAccumulateResult
  intro s b hf h2 h8
  obtain ⟨i, hi⟩ : ∃ i : BufIndex, i.val = s.cursor.val := ⟨⟨s.cursor.val, by omega⟩, rfl⟩
  refine ⟨s.buf.write i b, cursorAfter i, ?cursor, fun k => ?entry,
    exec_feed_of_accumulate hf hi h2 h8⟩
  case cursor => rw [cursorAfter_val, hi]
  case entry => simp only [s.buf.read_write i k b, Fin.ext_iff, hi]

/-- Settles O23: the byte is the sum of entries 2 to 8, so it passes the checksum check. -/
theorem feedValidFrameResult : Obligations.FeedValidFrameResult := by
  unfold Obligations.FeedValidFrameResult
  intro s b hf hc hsum
  rw [← s.payload_sum, ← Payload.checksum_eq_iff] at hsum
  exact ⟨s.buf.write 9 b, fun k => s.buf.read_write 9 k b, exec_feed_of_valid hf hc hsum⟩

/-- Settles O24: the byte is not the sum of entries 2 to 8, so it fails the checksum check. -/
theorem feedMismatchResult : Obligations.FeedMismatchResult := by
  unfold Obligations.FeedMismatchResult
  intro s b hf hc hsum
  rw [← s.payload_sum, ne_eq, ← Payload.checksum_eq_iff] at hsum
  exact ⟨s.buf.write 9 b, fun k => s.buf.read_write 9 k b, exec_feed_of_mismatch hf hc hsum⟩

end Sys2Proof.Machine
end

section
/-! PROOFS. The control operations (41_control.md R75 to R78): the state each answers with. -/

namespace Sys2Proof.Machine

/-! The registers that SIL leaves, which are all that FEED reads out of a frame -/

@[simp] theorem silenceReset_inFrame (s : State) : (silenceReset s).inFrame = false := rfl

@[simp] theorem silenceReset_cursor (s : State) : (silenceReset s).cursor = 0 := rfl

@[simp] theorem silenceReset_prev (s : State) : (silenceReset s).prev = 0 := rfl

/-- After SIL no byte completes a marker, because `prev` holds no `0xFF` (41_control.md R77). -/
theorem no_marker_after_silenceReset (s : State) (b : Byte) :
    ¬((silenceReset s).prev = 0xFF ∧ b = 0x55) := by
  rintro ⟨hp, -⟩
  rw [silenceReset_prev] at hp
  exact absurd hp (by decide)

/-- The first byte counted from a cleared cursor (40_feed.md R62). -/
theorem nextCount_zero : nextCount 0 = 1 := by
  rw [Fin.ext_iff, nextCount_val]
  decide

/-! What each control operation answers -/

theorem State.noReport_eq (s : State) : s.noReport = { s with resValid := false, resCode := 0 } := rfl

theorem exec_idle_eq (s : State) : exec .idle s = .next s.noReport := rfl

/-- Settles O13: IDLE answers the state with no report. -/
theorem idleWritesOnlyResult : Obligations.IdleWritesOnlyResult := by
  unfold Obligations.IdleWritesOnlyResult
  intro s
  rw [exec_idle_eq, s.noReport_eq]

/-- Settles O14: SIL answers the silence reset's state. -/
theorem silenceResetResult : Obligations.SilenceResetResult := by
  unfold Obligations.SilenceResetResult
  intro s
  rw [exec_sil_eq, silenceReset_eq]

/-- Settles O15: on the state that SIL leaves, FEED is the search case, because `prev` is cleared; it
counts from the cleared cursor. -/
theorem silfeedResult : Obligations.SilfeedResult := by
  unfold Obligations.SilfeedResult
  intro s b
  refine ⟨⟨silenceReset s, exec_sil_eq s, exec_silfeed_eq b s⟩, ?result⟩
  case result =>
    have search_case := exec_feed_of_search (silenceReset_inFrame s) (no_marker_after_silenceReset s b)
    rw [exec_silfeed_eq, search_case, silenceReset_cursor, nextCount_zero, silenceReset_eq]

/-- Settles O16: RESET answers the reset state with the words to come; its fields are R28's values. -/
theorem resetResult : Obligations.ResetResult := by
  unfold Obligations.ResetResult
  intro s
  rw [exec_reset_eq]
  rfl

end Sys2Proof.Machine
end

section
/-! PROOFS. Runs operation by operation (41_control.md R80), and the read of `fo` before the first
ValidFrame after RESET (70_reset_and_hazards.md R104). -/

namespace Sys2Proof.Machine

/-! A run and its observations, one operation at a time -/

theorem runOps_cons_of_next {i : Instr} {s u : State} (h : exec i s = .next u) (ops : List Instr) :
    runOps (i :: ops) s = runOps ops u := by
  rw [runOps, h]

/-- A state is observed only where it shows a driven code, and the observation is then its outputs
(41_control.md R80). -/
theorem State.eq_of_observation_ok {s : State} {o : Observation} (h : s.observation = .ok o) :
    o = ⟨s.resValid, s.resCode, s.fo⟩ := by
  by_cases hc : s.resCode = 3
  · rw [State.observation_of_reserved hc] at h
    cases h
  · rw [State.observation_of_driven hc] at h
    exact (Except.ok.inj h).symm

/-- EVERYTHING that observations of a run with a first operation can be: that operation answered, and
its outputs stand before the observations of the rest. -/
theorem observations_cons_next {i : Instr} {ops : List Instr} {s : State} {os : List Observation}
    (h : observations (i :: ops) s = .next os) :
    ∃ u rest, exec i s = .next u ∧ observations ops u = .next rest ∧
      os = ⟨u.resValid, u.resCode, u.fo⟩ :: rest := by
  rw [observations] at h
  split at h
  · cases h
  · cases h
  next u hexec =>
    split at h
    · cases h
    next o hobs =>
      split at h
      next rest hrest =>
        obtain rfl := State.eq_of_observation_ok hobs
        exact ⟨u, rest, hexec, hrest, (Host.Outcome.next.inj h).symm⟩
      · cases h
      · cases h

/-! Without a ValidFrame, no operation gives `fo` a value -/

/-- Of the cases of FEED only a valid completion writes `fo`, and it reports ValidFrame (10_state.md
R20; 40_feed.md R65). -/
theorem feed_fo_of_not_validFrame {b : Byte} {s t : State} (h : feed b s = .next t)
    (hcode : t.resCode ≠ 1) : t.fo = s.fo := by
  obtain ⟨-, -, rfl⟩ | ⟨-, -, -, rfl⟩ | ⟨i, -, -, -, -, rfl⟩ | ⟨-, -, -, rfl⟩ | ⟨-, -, -, rfl⟩ :=
    feed_next_cases h
  case inl => rw [feedSearch_eq]
  case inr.inl => rw [feedMarker_eq]
  case inr.inr.inl => rw [feedAccumulate_eq]
  case inr.inr.inr.inl => exact absurd (congrArg State.resCode (feedValid_eq b s)) hcode
  case inr.inr.inr.inr => rw [feedMismatch_eq]

theorem exec_keeps_fo_none {i : Instr} {s t : State} (h : exec i s = .next t)
    (hcode : t.resCode ≠ 1) (hfo : s.fo = none) : t.fo = none := by
  obtain ⟨-, rfl⟩ | ⟨b, -, hfeed⟩ | ⟨-, rfl⟩ | ⟨b, -, hfeed⟩ | ⟨-, rfl⟩ := exec_next_cases h
  case inl => rw [State.noReport_fo, hfo]
  case inr.inl => rw [feed_fo_of_not_validFrame hfeed hcode, hfo]
  case inr.inr.inl => rw [silenceReset_eq, hfo]
  case inr.inr.inr.inl => rw [feed_fo_of_not_validFrame hfeed hcode, silenceReset_eq, hfo]
  case inr.inr.inr.inr => rw [State.noReport_fo, State.dropData_fo]

/-- By induction on the operations, each by `exec_keeps_fo_none` on its own observation. -/
theorem runOps_keeps_fo_none {ops : List Instr} {s t : State} {os : List Observation}
    (hobs : observations ops s = .next os) (hcode : ∀ o ∈ os, o.resCode ≠ 1)
    (hrun : runOps ops s = .next t) (hfo : s.fo = none) : t.fo = none := by
  induction ops generalizing s os with
  | nil =>
    obtain rfl := Host.Outcome.next.inj hrun
    exact hfo
  | cons i ops ih =>
    obtain ⟨u, rest, hexec, hrest, rfl⟩ := observations_cons_next hobs
    obtain ⟨hcode_first, hcode_rest⟩ := List.forall_mem_cons.mp hcode
    rw [runOps_cons_of_next hexec] at hrun
    exact ih hrest hcode_rest hrun (exec_keeps_fo_none hexec hcode_first hfo)

/-! The consumer's read -/

theorem State.readFo_of_none {s : State} (h : s.fo = none) : s.readFo = .error .foUnspecified := by
  rw [State.readFo, h]

/-- Settles O42: RESET leaves `fo` with no value, and the operations after it keep it so, because none
of their observations is a ValidFrame. -/
theorem frameOutputUnreadableBeforeValidFrame : Obligations.FrameOutputUnreadableBeforeValidFrame := by
  unfold Obligations.FrameOutputUnreadableBeforeValidFrame
  intro ops s t os hobs hcode hrun
  obtain ⟨u, rest, hexec, hrest, rfl⟩ := observations_cons_next hobs
  rw [runOps_cons_of_next hexec] at hrun
  have fo_after_reset : u.fo = none := by
    rw [exec_reset_eq] at hexec
    rw [← Host.Outcome.next.inj hexec, State.reset]
  exact State.readFo_of_none
    (runOps_keeps_fo_none hrest (List.forall_mem_cons.mp hcode).2 hrun fo_after_reset)

end Sys2Proof.Machine
end

section
/-! PROOFS. The decoder and the encoder (30_encoding.md R47 to R51): each undoes the other on the
words it should, and the decoder reads the opcode table's rows. -/

namespace Sys2Proof

theorem Instr.wellFormed_eq_true (i : Instr) : i.wellFormed = true := by cases i <;> rfl

/-- Settles O1: the strobes that the encoder writes for an operation select that operation's row of
R47's table, and its byte comes back as the operand. -/
theorem decodeEncodeAgree : Obligations.DecodeEncodeAgree := by
  unfold Obligations.DecodeEncodeAgree
  intro i
  refine ⟨i.wellFormed_eq_true, ?_⟩
  cases i with
  | idle => exact decode_of_idle_strobes (strobed_rst _ _) (strobed_sil _ _) (strobed_inValid _ _)
  | feed b =>
    rw [encode, decode_of_feed_strobes (strobed_rst _ b) (strobed_sil _ b) (strobed_inValid _ b),
      strobed_inByte]
  | sil => exact decode_of_sil_strobes (strobed_rst _ _) (strobed_sil _ _) (strobed_inValid _ _)
  | silfeed b =>
    rw [encode, decode_of_silfeed_strobes (strobed_rst _ b) (strobed_sil _ b) (strobed_inValid _ b),
      strobed_inByte]
  | reset => exact decode_of_rst (strobed_rst _ _)

/-! A word is its strobes above its byte (30_encoding.md R48) -/

theorem OpWord.eq_strobed {w : OpWord} {k : BitVec 3} {b : Byte} (hr : w.rst = k.getLsbD 2)
    (hs : w.sil = k.getLsbD 1) (hv : w.inValid = k.getLsbD 0) (hb : w.inByte = b) :
    w = strobed k b := by
  subst hb
  apply BitVec.eq_of_getLsbD_eq
  intro n hn
  rw [strobed_getLsbD]
  split
  next hlow => simp [OpWord.inByte, hlow]
  next hhigh =>
    obtain rfl | rfl | rfl : n = 8 ∨ n = 9 ∨ n = 10 := by omega
    · exact hv
    · exact hs
    · exact hr

/-- Without `rst` and `in_valid` a canonical word has no byte. -/
theorem OpWord.inByte_of_canonical {w : OpWord} (hw : w.canonical = true) (hr : w.rst = false)
    (hv : w.inValid = false) : w.inByte = 0 := by
  simpa [OpWord.canonical, hr, hv] using hw

/-- With `rst` a canonical word has nothing else. -/
theorem OpWord.fields_of_canonical_rst {w : OpWord} (hw : w.canonical = true) (hr : w.rst = true) :
    (w.sil = false ∧ w.inValid = false) ∧ w.inByte = 0 := by
  simpa [OpWord.canonical, hr] using hw

/-- Settles O2: the encoder writes the strobes that selected the operation, and 0 where the canonical
word has its don't-care bits (log entry 17 for those of RESET). -/
theorem canonicalWordsRoundTrip : Obligations.CanonicalWordsRoundTrip := by
  unfold Obligations.CanonicalWordsRoundTrip
  intro w hw
  symm
  cases hr : w.rst with
  | true =>
    obtain ⟨⟨hs, hv⟩, hb⟩ := OpWord.fields_of_canonical_rst hw hr
    rw [decode_of_rst hr]
    exact OpWord.eq_strobed hr hs hv hb
  | false =>
    cases hs : w.sil <;> cases hv : w.inValid
    case false.false =>
      rw [decode_of_idle_strobes hr hs hv]
      exact OpWord.eq_strobed hr hs hv (OpWord.inByte_of_canonical hw hr hv)
    case false.true =>
      rw [decode_of_feed_strobes hr hs hv]
      exact OpWord.eq_strobed hr hs hv rfl
    case true.false =>
      rw [decode_of_sil_strobes hr hs hv]
      exact OpWord.eq_strobed hr hs hv (OpWord.inByte_of_canonical hw hr hv)
    case true.true =>
      rw [decode_of_silfeed_strobes hr hs hv]
      exact OpWord.eq_strobed hr hs hv rfl

/-! The opcode table's match and mask (opcode_table.json) -/

/-- A word that meets a match under a mask has the match's bit wherever the mask has 1. -/
theorem getLsbD_of_mask {w mask value : OpWord} (h : w &&& mask = value) {n : Nat}
    (hn : mask.getLsbD n = true) : w.getLsbD n = value.getLsbD n := by
  rw [← h, BitVec.getLsbD_and, hn, Bool.and_true]

/-- The operand is the low byte of the word (30_encoding.md R49). -/
theorem OpWord.inByte_eq_truncate (w : OpWord) : w.inByte = w.truncate 8 := by
  rw [OpWord.inByte, BitVec.truncate_eq_setWidth, BitVec.setWidth_eq_extractLsb' (by decide)]

/-- Settles O4: the mask of a row fixes the strobes that the row's operation is selected by. -/
theorem decodeMatchesOpcodeTable : Obligations.DecodeMatchesOpcodeTable := by
  unfold Obligations.DecodeMatchesOpcodeTable
  intro w
  rw [← w.inByte_eq_truncate]
  refine ⟨fun h => ?idle, fun h => ?feed, fun h => ?sil, fun h => ?silfeed, fun h => ?reset⟩
  case idle =>
    exact decode_of_idle_strobes (getLsbD_of_mask h rfl) (getLsbD_of_mask h rfl) (getLsbD_of_mask h rfl)
  case feed =>
    exact decode_of_feed_strobes (getLsbD_of_mask h rfl) (getLsbD_of_mask h rfl) (getLsbD_of_mask h rfl)
  case sil =>
    exact decode_of_sil_strobes (getLsbD_of_mask h rfl) (getLsbD_of_mask h rfl) (getLsbD_of_mask h rfl)
  case silfeed =>
    exact decode_of_silfeed_strobes (getLsbD_of_mask h rfl) (getLsbD_of_mask h rfl)
      (getLsbD_of_mask h rfl)
  case reset => exact decode_of_rst (getLsbD_of_mask h rfl)

/-- Settles O5: the nine words are fixed, so the decoder's answers are computed. -/
theorem decodeReadsSpecWords : Obligations.DecodeReadsSpecWords := by
  unfold Obligations.DecodeReadsSpecWords
  decide

end Sys2Proof
end

section
/-! PROOFS. The transition table (40_feed.md R74; 41_control.md R75 to R79) as a relation that is
`exec` where it answers a next state, and what each operation may and may not do, read off its
rows. -/

namespace Sys2Proof.Machine

/-- The rows of the transition table: `Transition s i t` when operation `i` takes `s` to `t`. -/
inductive Transition (s : State) : Instr → State → Prop where
  | idle : Transition s .idle { s with resValid := false, resCode := 0 }
  | search {b : Byte} (hf : s.inFrame = false) (hm : ¬(s.prev = 0xFF ∧ b = 0x55)) :
      Transition s (.feed b)
        { s with prev := b, cursor := nextCount s.cursor, resValid := true, resCode := 0 }
  | marker (hf : s.inFrame = false) (hp : s.prev = 0xFF) :
      Transition s (.feed 0x55)
        { s with buf := s.buf.write 1 0x55, inFrame := true, cursor := 2, prev := 0x55,
                 resValid := true, resCode := 0 }
  | accumulate {b : Byte} {i : BufIndex} (hf : s.inFrame = true) (hi : i.val = s.cursor.val)
      (h2 : 2 ≤ s.cursor.val) (h8 : s.cursor.val ≤ 8) :
      Transition s (.feed b)
        { s with buf := s.buf.write i b, cursor := cursorAfter i, prev := b,
                 resValid := true, resCode := 0 }
  | valid {b : Byte} (hf : s.inFrame = true) (hc : s.cursor.val = 9) (hs : s.payload.checksum = b) :
      Transition s (.feed b)
        { s with buf := s.buf.write 9 b, inFrame := false, cursor := 0, prev := b,
                 fo := some (s.payload.frameOut b), resValid := true, resCode := 1 }
  | mismatch {b : Byte} (hf : s.inFrame = true) (hc : s.cursor.val = 9)
      (hs : s.payload.checksum ≠ b) :
      Transition s (.feed b)
        { s with buf := s.buf.write 9 b, inFrame := false, cursor := 0, prev := 0,
                 resValid := true, resCode := 2 }
  | sil : Transition s .sil
      { s with inFrame := false, cursor := 0, prev := 0, resValid := false, resCode := 0 }
  | silfeed {b : Byte} : Transition s (.silfeed b)
      { s with inFrame := false, cursor := 1, prev := b, resValid := true, resCode := 0 }
  | reset : Transition s .reset { State.reset with inputs := s.inputs }

/-- Each row is what `exec` answers. -/
theorem Transition.exec_eq {s t : State} {i : Instr} (h : Transition s i t) : exec i s = .next t := by
  cases h with
  | idle => exact idleWritesOnlyResult s
  | search hf hm => exact exec_feed_of_search hf hm
  | marker hf hp => exact exec_feed_of_marker hf hp
  | accumulate hf hi h2 h8 => exact exec_feed_of_accumulate hf hi h2 h8
  | valid hf hc hs => exact exec_feed_of_valid hf hc hs
  | mismatch hf hc hs => exact exec_feed_of_mismatch hf hc hs
  | sil => exact silenceResetResult s
  | silfeed => exact (silfeedResult s _).2
  | reset => exact exec_reset_eq s

/-- EVERY operation has its row, but for the FEED that meets a broken cursor (40_feed.md R61). -/
theorem transition_or_broken (i : Instr) (s : State) :
    (∃ t, Transition s i t) ∨
      (∃ b, i = .feed b ∧ s.inFrame = true ∧ ¬(2 ≤ s.cursor.val ∧ s.cursor.val ≤ 9)) := by
  cases i with
  | idle => exact .inl ⟨_, .idle⟩
  | sil => exact .inl ⟨_, .sil⟩
  | silfeed b => exact .inl ⟨_, .silfeed⟩
  | reset => exact .inl ⟨_, .reset⟩
  | feed b =>
    cases hf : s.inFrame with
    | false =>
      by_cases hm : s.prev = 0xFF ∧ b = 0x55
      · obtain ⟨hp, rfl⟩ := hm
        exact .inl ⟨_, .marker hf hp⟩
      · exact .inl ⟨_, .search hf hm⟩
    | true =>
      by_cases hrange : 2 ≤ s.cursor.val ∧ s.cursor.val ≤ 9
      · obtain ⟨h2, h9⟩ := hrange
        by_cases hc : s.cursor.val = 9
        · by_cases hs : s.payload.checksum = b
          · exact .inl ⟨_, .valid hf hc hs⟩
          · exact .inl ⟨_, .mismatch hf hc hs⟩
        · exact .inl ⟨_, .accumulate (i := ⟨s.cursor.val, by omega⟩) hf rfl h2 (by omega)⟩
      · exact .inr ⟨b, rfl, rfl, hrange⟩

theorem exec_feed_of_broken {b : Byte} {s : State} (hf : s.inFrame = true)
    (h : ¬(2 ≤ s.cursor.val ∧ s.cursor.val ≤ 9)) :
    exec (.feed b) s = .fault (.invariantFault (.cursorOutOfFrame s.cursor)) := by
  rw [exec_feed_eq, feed_of_broken hf h]

/-- `exec` answers a next state by a row of the table and in no other way. -/
theorem exec_next_iff {i : Instr} {s t : State} : exec i s = .next t ↔ Transition s i t := by
  refine ⟨fun h => ?_, Transition.exec_eq⟩
  obtain ⟨u, hu⟩ | ⟨b, rfl, hf, hbroken⟩ := transition_or_broken i s
  · obtain rfl : u = t := Host.Outcome.next.inj (hu.exec_eq.symm.trans h)
    exact hu
  · rw [exec_feed_of_broken hf hbroken] at h
    cases h

/-! Where an operation stops -/

theorem broken_cursor_iff (c : Cursor) : ¬(2 ≤ c.val ∧ c.val ≤ 9) ↔ c.val < 2 ∨ 9 < c.val := by omega

/-- Settles O26: what has no row of the transition table is the FEED that meets a broken cursor. -/
theorem onlyBrokenCursorStops : Obligations.OnlyBrokenCursorStops := by
  unfold Obligations.OnlyBrokenCursorStops
  intro i s
  obtain ⟨t, ht⟩ | ⟨b, rfl, hf, hbroken⟩ := transition_or_broken i s
  · exact .inl ⟨t, ht.exec_eq⟩
  · exact .inr ⟨b, rfl, hf, (broken_cursor_iff _).mp hbroken, exec_feed_of_broken hf hbroken⟩

/-- Settles O25: the cursor names no buffer position. -/
theorem feedFaultsOnBrokenCursor : Obligations.FeedFaultsOnBrokenCursor := by
  unfold Obligations.FeedFaultsOnBrokenCursor
  intro s b hf hbroken
  exact exec_feed_of_broken hf ((broken_cursor_iff _).mpr hbroken)

/-- Settles O18: the state that SIL or RESET answers has the values that the operation writes. -/
theorem silenceAndResetIdempotent : Obligations.SilenceAndResetIdempotent := by
  unfold Obligations.SilenceAndResetIdempotent
  intro s t
  refine ⟨fun h => ?sil, fun h => ?reset⟩
  case sil =>
    cases exec_next_iff.mp h
    rw [silenceResetResult]
  case reset =>
    cases exec_next_iff.mp h
    rw [exec_reset_eq]

/-! What an operation writes -/

/-- Settles O34: the strobe and the code that each row writes. -/
theorem resultStrobe : Obligations.ResultStrobe := by
  unfold Obligations.ResultStrobe
  intro i s t h
  cases exec_next_iff.mp h <;> exact ⟨rfl, by simp [yieldsResult, State.reset], by simp [State.reset]⟩

/-- Settles O37: two rows alone write `fo`, RESET's and the valid completion's. -/
theorem frameOutputWriters : Obligations.FrameOutputWriters := by
  unfold Obligations.FrameOutputWriters
  intro i s t h hfo
  cases exec_next_iff.mp h with
  | reset => exact .inl ⟨rfl, rfl⟩
  | valid hf hc hs => exact .inr ⟨_, rfl, hf, hc, rfl⟩
  | idle | search | marker | accumulate | mismatch | sil | silfeed => exact absurd rfl hfo

/-- Settles O38: the marker row alone sets `in_frame`; the completions, SIL, SILFEED and RESET clear
it. -/
theorem inFrameWriters : Obligations.InFrameWriters := by
  unfold Obligations.InFrameWriters
  intro i s t h
  refine ⟨fun hout hin => ?sets, fun hin hout => ?clears⟩
  case sets =>
    cases exec_next_iff.mp h with
    | marker _ hp => exact ⟨rfl, hp⟩
    | idle | search => exact absurd (hout.symm.trans hin) (by decide)
    | accumulate hf => exact absurd (hout.symm.trans hf) (by decide)
    | valid | mismatch | sil | silfeed | reset => cases hin
  case clears =>
    cases exec_next_iff.mp h with
    | sil => exact .inl rfl
    | reset => exact .inr (.inl rfl)
    | silfeed => exact .inr (.inr (.inl ⟨_, rfl⟩))
    | valid _ hc => exact .inr (.inr (.inr ⟨_, rfl, hc⟩))
    | mismatch _ hc => exact .inr (.inr (.inr ⟨_, rfl, hc⟩))
    | idle | accumulate => exact absurd (hout.symm.trans hin) (by decide)
    | search hf => exact absurd (hf.symm.trans hin) (by decide)
    | marker => cases hout

/-- Settles O39: the `prev` that each row writes; the mismatch row alone reports code 2. -/
theorem prevWriters : Obligations.PrevWriters := by
  unfold Obligations.PrevWriters
  intro i s t h
  have row := exec_next_iff.mp h
  refine ⟨?feed, ?silfeed, ?cleared, ?idle⟩
  case feed =>
    rintro b rfl
    cases row with
    | search | marker | accumulate | valid => simp
    | mismatch => exact (if_pos rfl).symm
  case silfeed =>
    rintro b rfl
    cases row
    rfl
  case cleared =>
    rintro (rfl | rfl) <;> cases row <;> rfl
  case idle =>
    rintro rfl
    cases row
    rfl

/-- Settles O40: the rows that store a byte store it at entry 1, at 9 or at a position from 2 on. -/
theorem entryZeroNeverWritten : Obligations.EntryZeroNeverWritten := by
  unfold Obligations.EntryZeroNeverWritten
  intro i s t h
  cases exec_next_iff.mp h with
  | idle | search | sil | silfeed => simp
  | reset => simp
  | marker => simp [Memory.read_write]
  | valid | mismatch => simp [Memory.read_write]
  | @accumulate _ i _ hi h2 =>
    have not_zero : (0 : BufIndex) ≠ i := fun e => by simp [← e] at hi; omega
    simp [Memory.read_write_other _ _ not_zero]

/-- Settles O41: SIL and RESET leave `prev` 0, so the next byte is searched and remembered. -/
theorem silenceAndResetBreakMarker : Obligations.SilenceAndResetBreakMarker := by
  unfold Obligations.SilenceAndResetBreakMarker
  intro s t b h
  have cleared : t.inFrame = false ∧ t.prev = 0 := by
    obtain h | h := h <;> cases exec_next_iff.mp h <;> exact ⟨rfl, rfl⟩
  obtain ⟨hf, hp⟩ := cleared
  have no_marker : ¬(t.prev = 0xFF ∧ b = 0x55) := by simp [hp]
  exact ⟨_, exec_feed_of_search hf no_marker, hf, rfl⟩

end Sys2Proof.Machine
end

section
/-! PROOFS. The step and the words to come (41_control.md R79; `inputs`, log entry 2). -/

namespace Sys2Proof.Machine

/-! The words to come stand apart from the operation -/

theorem Transition.inputs_eq {s t : State} {i : Instr} (h : Transition s i t) :
    t.inputs = s.inputs := by
  cases h <;> rfl

/-- No row of the transition table reads or writes the words to come. -/
theorem Transition.withInputs {s t : State} {i : Instr} (h : Transition s i t) (ws : List OpWord) :
    Transition { s with inputs := ws } i { t with inputs := ws } := by
  cases h with
  | idle => exact .idle
  | search hf hm => exact .search hf hm
  | marker hf hp => exact .marker hf hp
  | accumulate hf hi h2 h8 => exact .accumulate hf hi h2 h8
  | valid hf hc hs => exact .valid hf hc hs
  | mismatch hf hc hs => exact .mismatch hf hc hs
  | sil => exact .sil
  | silfeed => exact .silfeed
  | reset => exact .reset

/-- Settles O12: the row that `s` takes is the row that `s` with other words to come takes. -/
theorem execIgnoresInputs : Obligations.ExecIgnoresInputs := by
  unfold Obligations.ExecIgnoresInputs
  intro i s t ws h
  have row := exec_next_iff.mp h
  exact ⟨row.inputs_eq, (row.withInputs ws).exec_eq⟩

/-! A step on the presented word -/

/-- Settles O6: the presented word is the one decoded. -/
theorem stepRunsDecodedInstruction : Obligations.StepRunsDecodedInstruction := by
  unfold Obligations.StepRunsDecodedInstruction
  intro s w rest i hw hi
  rw [step_of_presented hw, hi]

theorem State.takeWord_of_no_word {s : State} (h : s.inputs = []) : s.takeWord = s := by
  rw [State.takeWord, h, List.tail_nil, ← h]

/-- Settles O7: the word of a cycle with no event decodes to IDLE, and there is no word to take. -/
theorem stepWithoutWordIsIdle : Obligations.StepWithoutWordIsIdle := by
  unfold Obligations.StepWithoutWordIsIdle
  intro s h
  have no_event : decode s.presentedWord = .idle := by rw [State.presentedWord, h]; decide
  rw [step, no_event, State.takeWord_of_no_word h]

theorem step_next_iff {s t : State} :
    step s = .next t ↔ Transition s.takeWord (decode s.presentedWord) t := exec_next_iff

/-- Settles O8: taking the word drops the first, and the operation leaves the others. -/
theorem stepTakesOneWord : Obligations.StepTakesOneWord := by
  unfold Obligations.StepTakesOneWord
  intro s t h
  rw [(step_next_iff.mp h).inputs_eq, State.takeWord_inputs]

/-- Settles O9: bits 10, 9 and 8 are the strobes that select the operation, and SILFEED is FEED on the
state that SIL leaves. -/
theorem stepFollowsWordBits : Obligations.StepFollowsWordBits := by
  unfold Obligations.StepFollowsWordBits
  intro s w rest hw
  rw [step_of_presented hw, ← w.inByte_eq_truncate]
  refine ⟨fun hr => ?reset, fun hr hs hv => ?idle, fun hr hs hv => ?feed, fun hr hs hv => ?sil,
    fun hr hs hv => ?silfeed⟩
  case reset => rw [decode_of_rst hr]
  case idle => rw [decode_of_idle_strobes hr hs hv]
  case feed => rw [decode_of_feed_strobes hr hs hv]
  case sil => rw [decode_of_sil_strobes hr hs hv]
  case silfeed =>
    rw [decode_of_silfeed_strobes hr hs hv]
    exact ⟨_, exec_sil_eq _, exec_silfeed_eq _ _⟩

/-! The host's run of the presented words -/

theorem runOps_cons_of_fault {i : Instr} {s : State} {f : Fault} (h : exec i s = .fault f)
    (ops : List Instr) : runOps (i :: ops) s = .fault f := by
  rw [runOps, h]

theorem core_run_succ_of_next {n : Nat} {s t : State} (h : step s = .next t) :
    Host.Core.run core (n + 1) s = Host.Core.run core n t := by
  have core_step : core.step s = .next t := h
  simp only [Host.Core.run, core_step]

theorem core_run_succ_of_fault {n : Nat} {s : State} {f : Fault} (h : step s = .fault f) :
    Host.Core.run core (n + 1) s = .fault f := by
  have core_step : core.step s = .fault f := h
  simp only [Host.Core.run, core_step]

theorem step_withInputs_cons (s : State) (w : OpWord) (ws : List OpWord) :
    step { s with inputs := w :: ws } = exec (decode w) { s with inputs := ws } :=
  step_of_presented rfl

/-- Settles O11, by induction on the words: a step takes one word and runs its operation, which does
the same, or stops at the same broken cursor, whatever words are to come. -/
theorem coreRunsPresentedWords : Obligations.CoreRunsPresentedWords := by
  unfold Obligations.CoreRunsPresentedWords
  intro ws rest s
  induction ws generalizing s with
  | nil => rfl
  | cons w ws ih =>
    rw [List.cons_append, List.length_cons, List.map_cons]
    have first_step := step_withInputs_cons s w (ws ++ rest)
    obtain ⟨t, row⟩ | ⟨b, hfeed, hf, hbroken⟩ := transition_or_broken (decode w) s
    · rw [core_run_succ_of_next (first_step.trans (row.withInputs _).exec_eq),
        runOps_cons_of_next (row.withInputs rest).exec_eq]
      exact ih t
    · have stops (vs : List OpWord) : exec (decode w) { s with inputs := vs } =
          .fault (.invariantFault (.cursorOutOfFrame s.cursor)) := by
        rw [hfeed]
        exact exec_feed_of_broken hf hbroken
      exact (core_run_succ_of_fault (first_step.trans (stops _))).trans
        (runOps_cons_of_fault (stops rest) _).symm

end Sys2Proof.Machine
end

section
/-! PROOFS. The invariant of every reachable state (10_state.md R19; 20_memory.md R41; 30_encoding.md
R52, R57): each clause is kept by the rows of the transition table, so the invariant is kept, and a
run from RESET never stops. -/

namespace Sys2Proof.Machine

/-! The clauses of the invariant, row by row -/

/-- A row stores at most one byte, and a store keeps the canonical form (log entry 1). -/
theorem Transition.buf_wf {s t : State} {i : Instr} (h : Transition s i t) (hwf : s.buf.wf = true) :
    t.buf.wf = true := by
  cases h with
  | idle | search | sil | silfeed => exact hwf
  | marker | accumulate | valid | mismatch => exact Memory.wf_write _ _ _ hwf
  | reset => exact Memory.wf_nil

theorem Transition.entry_zero_none {s t : State} {i : Instr} (h : Transition s i t)
    (h0 : s.buf.read 0 = none) : t.buf.read 0 = none := by
  obtain ⟨kept, dropped⟩ := entryZeroNeverWritten i s t h.exec_eq
  by_cases hi : i = .reset
  · exact dropped hi
  · rw [kept hi, h0]

/-- Marker recognition stores the marker's second byte at entry 1 and collects from entry 2 on
(40_feed.md R63). -/
theorem collectsFrame_of_marker {s : State} (hbuf : s.buf.read 1 = some 0x55)
    (hc : s.cursor = 2) (hp : s.prev = 0x55) : s.CollectsFrame := by
  have hval : s.cursor.val = 2 := congrArg Fin.val hc
  refine ⟨by omega, by omega, hbuf, fun k h2 hk => by omega, fun k hk => ?_⟩
  obtain rfl : k = 1 := Fin.ext (by omega)
  rw [hbuf, hp]

/-- Accumulation extends the entries written by the one at the cursor (40_feed.md R64). -/
theorem State.CollectsFrame.accumulate {s : State} (h : s.CollectsFrame) {i : BufIndex} {b : Byte}
    (hi : i.val = s.cursor.val) (h8 : s.cursor.val ≤ 8) :
    (feedAccumulate b i s).CollectsFrame := by
  obtain ⟨h2, -, hmarker, hwritten, -⟩ := h
  have other {k : BufIndex} (hk : k.val ≠ i.val) : (s.buf.write i b).read k = s.buf.read k :=
    s.buf.read_write_other b fun e => hk (congrArg Fin.val e)
  rw [feedAccumulate_eq]
  refine ⟨?low, ?high, ?markerByte, fun k hk2 hk => ?written, fun k hk => ?last⟩
  case low => simp only [cursorAfter_val]; omega
  case high => simp only [cursorAfter_val]; omega
  case markerByte => rw [other (by simp only [Fin.val_one]; omega), hmarker]
  case written =>
    simp only [cursorAfter_val] at hk
    by_cases hki : k.val = i.val
    · rw [Fin.ext hki, Memory.read_write_same, Option.isSome_some]
    · rw [other hki]
      exact hwritten k hk2 (by omega)
  case last =>
    simp only [cursorAfter_val] at hk
    rw [Fin.ext (show k.val = i.val by omega), Memory.read_write_same]

theorem Transition.collectsFrame {s t : State} {i : Instr} (h : Transition s i t)
    (hs : s.inFrame = true → s.CollectsFrame) (ht : t.inFrame = true) : t.CollectsFrame := by
  cases h with
  | idle => exact hs ht
  | marker => exact collectsFrame_of_marker (Memory.read_write_same _ 1 _) rfl rfl
  | accumulate hf hi _ h8 => exact (hs hf).accumulate hi h8
  | search hf => exact absurd (hf.symm.trans ht) (by decide)
  | valid | mismatch | sil | silfeed | reset => cases ht

theorem Transition.count_le {s t : State} {i : Instr} (h : Transition s i t)
    (hs : s.inFrame = false → s.cursor.val ≤ 12) (ht : t.inFrame = false) : t.cursor.val ≤ 12 := by
  cases h with
  | idle => exact hs ht
  | search => exact nextCount_le _
  | accumulate hf => exact absurd (hf.symm.trans ht) (by decide)
  | marker => cases ht
  | valid | mismatch | sil | reset => exact Nat.zero_le 12
  | silfeed => exact Nat.le_add_left 1 11

/-- The frame that a payload and its checksum make meets the checksum (30_encoding.md R57). -/
theorem Payload.frameOut_valid {p : Payload} {c : Byte} (h : p.checksum = c) :
    (p.frameOut c).valid = true := beq_iff_eq.mpr h

theorem Transition.fo_valid {s t : State} {i : Instr} (h : Transition s i t)
    (hs : ∀ f ∈ s.fo, f.valid = true) : ∀ f ∈ t.fo, f.valid = true := by
  cases h with
  | valid _ _ hsum =>
    rintro f ⟨⟩
    exact Payload.frameOut_valid hsum
  | reset => rintro f ⟨⟩
  | idle | search | marker | accumulate | mismatch | sil | silfeed => exact hs

/-! The invariant -/

theorem Transition.inv {s t : State} {i : Instr} (h : Transition s i t) (hs : s.Inv) : t.Inv := by
  obtain ⟨hwf, hzero, hcollects, hcount, -, -, hfo⟩ := hs
  obtain ⟨hstrobe, hcode, hdriven⟩ := resultStrobe i s t h.exec_eq
  exact ⟨h.buf_wf hwf, h.entry_zero_none hzero, h.collectsFrame hcollects, h.count_le hcount, hdriven,
    fun hv => hcode (hstrobe.symm.trans hv), h.fo_valid hfo⟩

/-- The invariant does not speak of the words to come. -/
theorem State.Inv.takeWord {s : State} (h : s.Inv) : s.takeWord.Inv := h

theorem State.Inv.withInputs {s : State} (h : s.Inv) (ws : List OpWord) :
    State.Inv { s with inputs := ws } := h

/-- Settles O29: the reset state has nothing in the buffer, is out of frame and reports nothing. -/
theorem invHoldsAtReset : Obligations.InvHoldsAtReset := by
  unfold Obligations.InvHoldsAtReset
  exact ⟨Memory.wf_nil, Memory.read_nil 0, by rintro ⟨⟩, fun _ => by decide, by decide, fun _ => rfl,
    by rintro f ⟨⟩⟩

/-- Settles O30: a step is a row of the transition table on the state with its word taken. -/
theorem stepKeepsInv : Obligations.StepKeepsInv := by
  unfold Obligations.StepKeepsInv
  intro s t hs h
  exact (step_next_iff.mp h).inv hs.takeWord

/-- Settles O31: every row keeps the buffer's canonical form, from every state that has it. -/
theorem stepKeepsBufferCanonical : Obligations.StepKeepsBufferCanonical := by
  unfold Obligations.StepKeepsBufferCanonical
  intro s t hs h
  exact (step_next_iff.mp h).buf_wf (by rwa [State.takeWord_buf])

/-! The block never stops -/

/-- The invariant's cursor range excludes the one FEED that has no row. -/
theorem State.Inv.exists_transition {s : State} (h : s.Inv) (i : Instr) : ∃ t, Transition s i t := by
  obtain ⟨-, -, hcollects, -⟩ := h
  obtain row | ⟨-, -, hf, hbroken⟩ := transition_or_broken i s
  · exact row
  · obtain ⟨h2, h9, -⟩ := hcollects hf
    exact absurd ⟨h2, h9⟩ hbroken

/-- Settles O32: a state that meets the invariant has a row for every operation. -/
theorem invStatesNeverStop : Obligations.InvStatesNeverStop := by
  unfold Obligations.InvStatesNeverStop
  intro s hs
  obtain ⟨t, row⟩ := hs.takeWord.exists_transition (decode s.presentedWord)
  exact ⟨t, row.exec_eq⟩

/-- After an operation the state can be observed: no operation drives code 3 (30_encoding.md R52). -/
theorem Transition.observation_eq {s t : State} {i : Instr} (h : Transition s i t) :
    t.observation = .ok ⟨t.resValid, t.resCode, t.fo⟩ := by
  obtain ⟨-, -, hdriven⟩ := resultStrobe i s t h.exec_eq
  exact State.observation_of_driven hdriven

/-- The observations of a run whose first operation and rest both answer (41_control.md R80). -/
theorem Transition.observations_cons {s t : State} {i : Instr} (h : Transition s i t)
    {ops : List Instr} {os : List Observation} (hrest : observations ops t = .next os) :
    observations (i :: ops) s = .next (⟨t.resValid, t.resCode, t.fo⟩ :: os) := by
  simp only [observations, h.exec_eq, h.observation_eq, hrest]

/-- By induction on the operations, each of which keeps the invariant. -/
theorem State.Inv.observations_length {s : State} (hs : s.Inv) (ops : List Instr) :
    ∃ os, observations ops s = .next os ∧ os.length = ops.length := by
  induction ops generalizing s with
  | nil => exact ⟨[], rfl, rfl⟩
  | cons i ops ih =>
    obtain ⟨t, row⟩ := hs.exists_transition i
    obtain ⟨os, hos, hlen⟩ := ih (row.inv hs)
    exact ⟨_, row.observations_cons hos, by rw [List.length_cons, List.length_cons, hlen]⟩

/-- Settles O33: the RESET leaves a state that meets the invariant, whatever state it is given in. -/
theorem runFromResetNeverStops : Obligations.RunFromResetNeverStops := by
  unfold Obligations.RunFromResetNeverStops
  intro ws s
  have after_reset : State.Inv { State.reset with inputs := s.inputs } :=
    State.Inv.withInputs invHoldsAtReset s.inputs
  obtain ⟨os, hos, hlen⟩ := after_reset.observations_length (ws.map decode)
  refine ⟨_, Transition.reset.observations_cons hos, ?_⟩
  rw [List.length_cons, hlen, List.length_map]

end Sys2Proof.Machine
end

section
/-! PROOFS. What the outside sees: the observation, the ports and the results of a run (30_encoding.md
R46, R52, R54; 41_control.md R80; 60_exceptions.md R84). -/

namespace Sys2Proof.Machine

/-! The reserved code -/

/-- Settles O36: the two branches of the observation. -/
theorem observingReservedCodeFaults : Obligations.ObservingReservedCodeFaults := by
  unfold Obligations.ObservingReservedCodeFaults
  exact fun s => ⟨State.observation_of_reserved, State.observation_of_driven⟩

theorem frameResultOf_reserved : frameResultOf 3 = none := by decide

/-- Settles O56: the ports and the read of the `fo` port go through the observation, and code 3 stands
for no FrameResult. -/
theorem portsWithReservedCodeFault : Obligations.PortsWithReservedCodeFault := by
  unfold Obligations.PortsWithReservedCodeFault
  intro s h
  refine ⟨State.outPorts_of_reserved h, ?result, ?foPort⟩
  case result => rw [State.readResult, h, frameResultOf_reserved]
  case foPort => rw [State.readFoPort, State.outPorts_of_reserved h]

/-! The output ports -/

/-- The low byte of a concatenation is the byte written last. -/
theorem extractLsb'_append_low {v : Nat} (hi : BitVec v) (lo : Byte) :
    (hi ++ lo).extractLsb' 0 8 = lo := by
  rw [BitVec.extractLsb'_append_eq_of_add_le (by decide), BitVec.extractLsb'_eq_self]

/-- Above its low byte a concatenation is what stands before that byte. -/
theorem extractLsb'_append_high {v k : Nat} {hi : BitVec v} {lo b : Byte}
    (h : hi.extractLsb' (8 * k) 8 = b) : (hi ++ lo).extractLsb' (8 * (k + 1)) 8 = b := by
  rw [BitVec.extractLsb'_append_eq_of_le (by omega), Nat.mul_succ, Nat.add_sub_cancel, h]

/-- Settles O43: entry `k` is the byte at the low end when the `k` bytes below it are dropped. -/
theorem frameOutputPortPacking : Obligations.FrameOutputPortPacking := by
  unfold Obligations.FrameOutputPortPacking
  intro f k
  match k with
  | 0 | 1 | 2 | 3 | 4 | 5 | 6 =>
    repeat apply extractLsb'_append_high
    exact extractLsb'_append_low _ _
  | 7 =>
    repeat apply extractLsb'_append_high
    exact BitVec.extractLsb'_eq_self

/-- Settles O55: no operation drives code 3, so the ports show the registers, `fo` packed. -/
theorem outputPortsShowRegisters : Obligations.OutputPortsShowRegisters := by
  unfold Obligations.OutputPortsShowRegisters
  intro i s t h
  obtain ⟨-, -, hdriven⟩ := resultStrobe i s t h
  refine ⟨_, State.outPorts_of_driven hdriven, rfl, rfl, fun hnone => ?noFrame, fun f hsome => ?frame⟩
  case noFrame => rw [hnone, Option.map_none]
  case frame => exact ⟨f.port, by rw [hsome, Option.map_some], frameOutputPortPacking f⟩

/-! The results of a run -/

/-- Of the observations of a run, as many have the strobe as there are feeding operations, by induction
on the operations. -/
theorem observations_countP_resValid {ops : List Instr} {s : State} {os : List Observation}
    (h : observations ops s = .next os) : os.countP (·.resValid) = ops.countP yieldsResult := by
  induction ops generalizing s os with
  | nil =>
    obtain rfl := Host.Outcome.next.inj h
    rfl
  | cons i ops ih =>
    obtain ⟨t, rest, hexec, hrest, rfl⟩ := observations_cons_next h
    obtain ⟨hstrobe, -, -⟩ := resultStrobe i s t hexec
    rw [List.countP_cons, List.countP_cons, ih hrest, hstrobe]

/-- A run's results are those of its observations that have the strobe (41_control.md R80). -/
theorem results_next_iff {ops : List Instr} {s : State} {rs : List Observation} :
    results ops s = .next rs ↔ ∃ os, observations ops s = .next os ∧ os.filter (·.resValid) = rs := by
  rw [results]
  split <;> simp_all

/-- Settles O35: the results are the observations with the strobe. -/
theorem oneResultPerFedByte : Obligations.OneResultPerFedByte := by
  unfold Obligations.OneResultPerFedByte
  intro ops s rs h
  obtain ⟨os, hos, rfl⟩ := results_next_iff.mp h
  rw [← List.countP_eq_length_filter, observations_countP_resValid hos]

end Sys2Proof.Machine
end

section
/-! PROOFS. The checksum function (40_feed.md R68) as a sum of bytes with wrap-around. -/

namespace Sys2Proof.Machine

/-- The exact sum modulo 256 is the sum of the bytes as they are added in 8 bits. -/
theorem Payload.checksum_eq_bytes_sum (p : Payload) : p.checksum = p.bytes.sum := by
  apply BitVec.eq_of_toNat_eq
  rw [p.checksum_toNat, Payload.sum]
  simp only [Payload.bytes, List.sum_cons, List.sum_nil, add_zero, BitVec.toNat_add]
  omega

/-- Settles O27: the wrapping sum does not depend on the order. -/
theorem checksumIsWrappingSumInAnyOrder : Obligations.ChecksumIsWrappingSumInAnyOrder := by
  unfold Obligations.ChecksumIsWrappingSumInAnyOrder
  intro p bs h
  calc bs.foldl (· + ·) 0 = bs.sum := List.sum_eq_foldl.symm
    _ = p.bytes.sum := h.sum_eq
    _ = p.checksum := p.checksum_eq_bytes_sum.symm

/-- Lists of one length that differ at exactly one position have different sums: what stands at the
other positions cancels. By induction on the lists. -/
theorem sum_ne_of_single_change {l m : List Byte} {k : Nat} (hlen : l.length = m.length)
    (hother : ∀ j, j ≠ k → l[j]? = m[j]?) (hk : l[k]? ≠ m[k]?) : l.sum ≠ m.sum := by
  induction l generalizing m k with
  | nil =>
    obtain rfl : m = [] := List.length_eq_zero_iff.mp hlen.symm
    exact absurd rfl hk
  | cons a l ih =>
    obtain _ | ⟨b, m⟩ := m
    · cases hlen
    rw [List.sum_cons, List.sum_cons]
    cases k with
    | zero =>
      obtain rfl : l = m := List.ext_getElem? fun j => by simpa using hother (j + 1) (by omega)
      exact fun e => hk (congrArg some (add_right_cancel e))
    | succ k =>
      obtain rfl : a = b := by simpa using hother 0 (by omega)
      have tails_differ : l.sum ≠ m.sum :=
        ih (k := k) (by simpa using hlen) (fun j hj => by simpa using hother (j + 1) (by omega))
          (by simpa using hk)
      exact fun e => tails_differ (add_left_cancel e)

/-- Settles O28: both checksums are sums of seven bytes. -/
theorem singleByteChangeIsDetected : Obligations.SingleByteChangeIsDetected := by
  unfold Obligations.SingleByteChangeIsDetected
  intro p q k hother hk
  rw [p.checksum_eq_bytes_sum, q.checksum_eq_bytes_sum]
  exact sum_ne_of_single_change rfl hother hk

end Sys2Proof.Machine
end

section
/-! PROOFS. Several instances (20_memory.md R43; 60_exceptions.md R89; the vector, log entry 10). -/

namespace Sys2Proof.Machine

/-- A step that answers is the stepped block's own step, its state put back in its place. -/
theorem stepInstance_next_iff {n : Nat} {k : Fin n} {sys a : Instances n} :
    stepInstance k sys = .next a ↔ ∃ t, step sys[k] = .next t ∧ sys.set k t = a := by
  rw [stepInstance]
  split <;> simp_all

theorem set_getElem_other {n : Nat} {j k : Fin n} (hjk : j ≠ k) (sys : Instances n) (t : State) :
    (sys.set j t)[k] = sys[k] :=
  Vector.getElem_set_ne _ _ fun e => hjk (Fin.ext e)

/-- Settles O54: only the place of the stepped block is set. -/
theorem otherInstancesUnchanged : Obligations.OtherInstancesUnchanged := by
  unfold Obligations.OtherInstancesUnchanged
  intro n j k sys a hjk h
  obtain ⟨t, -, rfl⟩ := stepInstance_next_iff.mp h
  exact set_getElem_other hjk sys t

/-- Settles O53: either block finds its own state unchanged by the other's step, and sets at different
places commute. -/
theorem instancesCommute : Obligations.InstancesCommute := by
  unfold Obligations.InstancesCommute
  intro n j k sys a b hjk ha hb
  obtain ⟨t, ht, rfl⟩ := stepInstance_next_iff.mp ha
  obtain ⟨u, hu, rfl⟩ := stepInstance_next_iff.mp hb
  refine ⟨(sys.set j t).set k u, stepInstance_next_iff.mpr ⟨u, ?_, rfl⟩,
    stepInstance_next_iff.mpr ⟨t, ?_, ?_⟩⟩
  · rw [set_getElem_other hjk, hu]
  · rw [set_getElem_other hjk.symm, ht]
  · exact Vector.set_comm _ _ fun e => hjk (Fin.ext e.symm)

end Sys2Proof.Machine
end

section
/-! PROOFS. What later operations can tell of a state (10_state.md R17, R29; 20_memory.md R36;
70_reset_and_hazards.md R105). `State.Agrees` relates two states that no sequence of operations tells
apart: each operation keeps it and answers with the same outputs, so one induction on the operations
serves every statement that a part of the state reaches no output. -/

namespace Sys2Proof.Machine

/-- Two states agree in what later operations read: the registers that FEED chooses its case by, and,
in a frame, the cursor and the payload bytes collected so far. The strobe and the code of the last
operation are not among it. -/
structure State.Agrees (s t : State) : Prop where
  inFrame : s.inFrame = t.inFrame
  fo : s.fo = t.fo
  prev : s.prev = 0xFF ↔ t.prev = 0xFF
  cursor : s.inFrame = true → s.cursor = t.cursor
  collected : s.inFrame = true →
    ∀ k : BufIndex, 2 ≤ k.val → k.val < s.cursor.val → s.bufByte k = t.bufByte k

theorem State.Agrees.symm {s t : State} (h : s.Agrees t) : t.Agrees s where
  inFrame := h.inFrame.symm
  fo := h.fo.symm
  prev := h.prev.symm
  cursor hf := (h.cursor (h.inFrame.trans hf)).symm
  collected hf k h2 hk :=
    (h.collected (h.inFrame.trans hf) k h2 (by rwa [h.cursor (h.inFrame.trans hf)])).symm

/-- Out of a frame neither the count nor the buffer is read (20_memory.md R36; 10_state.md R29). -/
theorem State.agrees_of_outOfFrame {s t : State} (hs : s.inFrame = false) (ht : t.inFrame = false)
    (hfo : s.fo = t.fo) (hprev : s.prev = 0xFF ↔ t.prev = 0xFF) : s.Agrees t where
  inFrame := hs.trans ht.symm
  fo := hfo
  prev := hprev
  cursor hf := absurd (hs.symm.trans hf) (by decide)
  collected hf := absurd (hs.symm.trans hf) (by decide)

/-- At the checksum position the payload has been collected. -/
theorem State.Agrees.payload_eq {s t : State} (h : s.Agrees t) (hf : s.inFrame = true)
    (hc : s.cursor.val = 9) : s.payload = t.payload := by
  have byte (k : Fin 7) : s.bufByte (Config.payloadIndex k) = t.bufByte (Config.payloadIndex k) :=
    h.collected hf _ (Nat.le_add_right 2 k) (hc ▸ Nat.add_lt_add_left k.isLt 2)
  simp only [State.payload, byte]

/-- The byte stored by accumulation joins the bytes collected (40_feed.md R64). -/
theorem State.Agrees.bufByte_storeBuf {s t : State} (h : s.Agrees t) (hf : s.inFrame = true)
    {i : BufIndex} (hi : i.val = s.cursor.val) (b : Byte) {k : BufIndex} (h2 : 2 ≤ k.val)
    (hk : k.val < i.val + 1) : (s.storeBuf i b).bufByte k = (t.storeBuf i b).bufByte k := by
  rw [State.bufByte_storeBuf, State.bufByte_storeBuf]
  split
  next => rfl
  next hne =>
    have : k.val ≠ i.val := fun e => hne (Fin.ext e)
    exact h.collected hf k h2 (by omega)

/-- States that agree take the same row, report the same and agree again. -/
theorem Transition.agrees {s s' t : State} {i : Instr} (row : Transition s i s') (h : s.Agrees t) :
    ∃ t', Transition t i t' ∧ s'.Agrees t' ∧ s'.resCode = t'.resCode := by
  cases row with
  | idle => exact ⟨_, .idle, ⟨h.inFrame, h.fo, h.prev, h.cursor, h.collected⟩, rfl⟩
  | search hf hm =>
    have hf' := h.inFrame.symm.trans hf
    exact ⟨_, .search hf' fun ⟨hp, hb⟩ => hm ⟨h.prev.mpr hp, hb⟩,
      State.agrees_of_outOfFrame hf hf' h.fo Iff.rfl, rfl⟩
  | marker hf hp =>
    exact ⟨_, .marker (h.inFrame.symm.trans hf) (h.prev.mp hp),
      ⟨rfl, h.fo, Iff.rfl, fun _ => rfl, fun _ k h2 hk => absurd hk (Nat.not_lt.mpr h2)⟩, rfl⟩
  | @accumulate b i hf hi h2 h8 =>
    have hc := h.cursor hf
    exact ⟨_, .accumulate (h.inFrame.symm.trans hf) (hc ▸ hi) (hc ▸ h2) (hc ▸ h8),
      ⟨h.inFrame, h.fo, Iff.rfl, fun _ => rfl, fun _ k hk2 hk => h.bufByte_storeBuf hf hi b hk2 hk⟩,
      rfl⟩
  | valid hf hc hs =>
    have hp := h.payload_eq hf hc
    exact ⟨_, .valid (h.inFrame.symm.trans hf) (h.cursor hf ▸ hc) (hp ▸ hs),
      State.agrees_of_outOfFrame rfl rfl (by simp only [hp]) Iff.rfl, rfl⟩
  | mismatch hf hc hs =>
    exact ⟨_, .mismatch (h.inFrame.symm.trans hf) (h.cursor hf ▸ hc) (h.payload_eq hf hc ▸ hs),
      State.agrees_of_outOfFrame rfl rfl h.fo Iff.rfl, rfl⟩
  | sil => exact ⟨_, .sil, State.agrees_of_outOfFrame rfl rfl h.fo Iff.rfl, rfl⟩
  | silfeed => exact ⟨_, .silfeed, State.agrees_of_outOfFrame rfl rfl h.fo Iff.rfl, rfl⟩
  | reset => exact ⟨_, .reset, State.agrees_of_outOfFrame rfl rfl rfl Iff.rfl, rfl⟩

/-- The strobe tells the operation, so states that the same operation answers have the same
(10_state.md R22). -/
theorem Transition.resValid_eq {s t : State} {i : Instr} (row : Transition s i t) :
    t.resValid = yieldsResult i := by
  obtain ⟨hstrobe, -, -⟩ := resultStrobe i s t row.exec_eq
  exact hstrobe

/-- Operations cannot tell apart states that agree, by induction on the operations. -/
theorem State.Agrees.observations_eq {s t : State} (h : s.Agrees t) (ops : List Instr) :
    observations ops s = observations ops t := by
  induction ops generalizing s t with
  | nil => rfl
  | cons i ops ih =>
    obtain ⟨s', row⟩ | ⟨b, rfl, hf, hbroken⟩ := transition_or_broken i s
    · obtain ⟨t', row', h', hcode⟩ := row.agrees h
      simp only [observations, row.exec_eq, row'.exec_eq, row.observation_eq, row'.observation_eq,
        row.resValid_eq, row'.resValid_eq, hcode, h'.fo, ih h']
    · have hc := h.cursor hf
      have stops := exec_feed_of_broken (b := b) (h.inFrame.symm.trans hf) (hc ▸ hbroken)
      simp only [observations, exec_feed_of_broken hf hbroken, stops, hc]

theorem State.Agrees.results_eq {s t : State} (h : s.Agrees t) (ops : List Instr) :
    results ops s = results ops t := by
  rw [results, results, h.observations_eq]

/-! Parts of the state that reach no output -/

/-- Settles O48: out of a frame the states agree, whatever the count. -/
theorem outOfFrameCountUnobservable : Obligations.OutOfFrameCountUnobservable := by
  unfold Obligations.OutOfFrameCountUnobservable
  intro s c ops hf
  have agree : State.Agrees { s with cursor := c } s := State.agrees_of_outOfFrame hf hf rfl Iff.rfl
  exact agree.observations_eq ops

/-- Settles O49: out of a frame the states agree, whatever the buffer. -/
theorem outOfFrameBufferUnobservable : Obligations.OutOfFrameBufferUnobservable := by
  unfold Obligations.OutOfFrameBufferUnobservable
  intro s m ops hf
  have agree : State.Agrees { s with buf := m } s := State.agrees_of_outOfFrame hf hf rfl Iff.rfl
  exact agree.observations_eq ops

/-- Settles O50: of `prev` FEED reads only whether it is `0xFF`. -/
theorem prevOtherThanMarkerUnobservable : Obligations.PrevOtherThanMarkerUnobservable := by
  unfold Obligations.PrevOtherThanMarkerUnobservable
  intro s b ops hs hb
  have agree : State.Agrees { s with prev := b } s :=
    ⟨rfl, rfl, iff_of_false hb hs, fun _ => rfl, fun _ _ _ _ => rfl⟩
  exact agree.observations_eq ops

/-! IDLE among the operations -/

/-- The results of a run whose first operation is observed as `o`, from those of the rest. -/
def resultsAfter (o : Observation) :
    Host.Outcome (List Observation) Fault Refusal → Host.Outcome (List Observation) Fault Refusal
  | .next rs => .next (if o.resValid then o :: rs else rs)
  | .fault f => .fault f
  | .refused r => .refused r

theorem resultsAfter_of_silent {o : Observation} (h : o.resValid = false)
    (r : Host.Outcome (List Observation) Fault Refusal) : resultsAfter o r = r := by
  cases r <;> simp [resultsAfter, h]

theorem Transition.results_cons {s t : State} {i : Instr} (row : Transition s i t) (ops : List Instr) :
    results (i :: ops) s = resultsAfter ⟨t.resValid, t.resCode, t.fo⟩ (results ops t) := by
  simp only [results, observations, row.exec_eq, row.observation_eq]
  cases observations ops t <;> simp [resultsAfter, List.filter_cons]

/-- A common first operation keeps results equal. -/
theorem results_cons_congr {i : Instr} {ops ops' : List Instr}
    (h : ∀ t, results ops t = results ops' t) (s : State) :
    results (i :: ops) s = results (i :: ops') s := by
  obtain ⟨t, row⟩ | ⟨b, rfl, hf, hbroken⟩ := transition_or_broken i s
  · rw [row.results_cons, row.results_cons, h t]
  · simp only [results, observations, exec_feed_of_broken hf hbroken]

/-- IDLE reports nothing and leaves a state that agrees (41_control.md R75). -/
theorem results_cons_idle (ops : List Instr) (s : State) : results (.idle :: ops) s = results ops s := by
  have agree : State.Agrees { s with resValid := false, resCode := 0 } s :=
    ⟨rfl, rfl, Iff.rfl, fun _ => rfl, fun _ _ _ _ => rfl⟩
  rw [Transition.idle.results_cons, resultsAfter_of_silent rfl, agree.results_eq]

/-- Settles O51, by induction on the operations before the IDLE. -/
theorem idleInsertionChangesNoResult : Obligations.IdleInsertionChangesNoResult := by
  unfold Obligations.IdleInsertionChangesNoResult
  intro before after s
  induction before generalizing s with
  | nil => exact results_cons_idle after s
  | cons i before ih => exact results_cons_congr ih s

/-- Any number of IDLE cycles changes no result, by induction on the operations. -/
theorem results_filter_idle (ops : List Instr) (s : State) :
    results (ops.filter (· ≠ .idle)) s = results ops s := by
  induction ops generalizing s with
  | nil => rfl
  | cons i ops ih =>
    by_cases hi : i = .idle
    · rw [List.filter_cons_of_neg (by simpa using hi), hi, results_cons_idle, ih]
    · rw [List.filter_cons_of_pos (by simpa using hi)]
      exact results_cons_congr ih s

end Sys2Proof.Machine
end

section
/-! PROOFS. Streams of bytes (40_feed.md R69 to R73): a stream is cut into noise, marker, payload and
checksum, each part with its own lemma, and the parts are put together. -/

namespace Sys2Proof.Machine

/-- `Stream s bs os t`: fed the bytes `bs` one after the other, `s` goes to `t`, and `os` is observed. -/
inductive Stream : State → List Byte → List Observation → State → Prop where
  | nil (s : State) : Stream s [] [] s
  | cons {s u t : State} {b : Byte} {bs : List Byte} {os : List Observation}
      (first : Transition s (.feed b) u) (rest : Stream u bs os t) :
      Stream s (b :: bs) (⟨u.resValid, u.resCode, u.fo⟩ :: os) t

theorem Stream.append {s t u : State} {bs cs : List Byte} {os ps : List Observation}
    (h : Stream s bs os t) (h' : Stream t cs ps u) : Stream s (bs ++ cs) (os ++ ps) u := by
  induction h with
  | nil => exact h'
  | cons first _ ih => exact .cons first (ih h')

theorem Stream.single {s t : State} {b : Byte} (row : Transition s (.feed b) t) :
    Stream s [b] [⟨t.resValid, t.resCode, t.fo⟩] t := .cons row (.nil t)

/-- A stream is the model's run of its FEEDs. -/
theorem Stream.runOps_eq {s t : State} {bs : List Byte} {os : List Observation}
    (h : Stream s bs os t) : runOps (feeds bs) s = .next t := by
  induction h with
  | nil => rfl
  | cons first _ ih => exact (runOps_cons_of_next first.exec_eq _).trans ih

/-- Every FEED reports, so all that is observed is results. -/
theorem Stream.results_eq {s t : State} {bs : List Byte} {os : List Observation}
    (h : Stream s bs os t) : results (feeds bs) s = .next os := by
  induction h with
  | nil => rfl
  | @cons s u t b bs os first rest ih =>
    calc results (.feed b :: feeds bs) s
      _ = resultsAfter ⟨u.resValid, u.resCode, u.fo⟩ (.next os) := by rw [first.results_cons, ih]
      _ = .next (⟨u.resValid, u.resCode, u.fo⟩ :: os) :=
        congrArg Host.Outcome.next (if_pos first.resValid_eq)

/-! Noise -/

theorem noMarkerPair_cons_cons {a b : Byte} {bs : List Byte} (h : noMarkerPair (a :: b :: bs) = true) :
    ¬(a = 0xFF ∧ b = 0x55) ∧ noMarkerPair (b :: bs) = true := by
  simpa [noMarkerPair, Config.mark0, Config.mark1, imp_iff_not_or] using h

/-- A cleared `prev` starts no marker (40_feed.md R66). -/
theorem noMarkerPair_zero_cons {bs : List Byte} (h : noMarkerPair bs = true) :
    noMarkerPair (0 :: bs) = true := by
  cases bs with
  | nil => rfl
  | cons b bs => simp [noMarkerPair, h, Config.mark0]

/-- Out of a frame, bytes that make no marker pair, the last byte fed before them included, are
searched one after the other (40_feed.md R62), by induction on them. -/
theorem stream_of_noise {s : State} {noise : List Byte} (hf : s.inFrame = false)
    (h : noMarkerPair (s.prev :: noise) = true) :
    ∃ t, Stream s noise (List.replicate noise.length ⟨true, 0, s.fo⟩) t ∧ t.inFrame = false ∧
      t.fo = s.fo := by
  induction noise generalizing s with
  | nil => exact ⟨s, .nil s, hf, rfl⟩
  | cons b noise ih =>
    obtain ⟨hm, hrest⟩ := noMarkerPair_cons_cons h
    obtain ⟨t, rest, ht, hfo⟩ := ih (s := feedSearch b s) hf hrest
    exact ⟨t, .cons (.search hf hm) rest, ht, hfo⟩

/-! Accumulation -/

/-- What feeding `bs` inside a frame leaves: the bytes from the cursor on, in order (10_state.md R19;
20_memory.md R34). -/
structure State.Collected (s : State) (bs : List Byte) (t : State) : Prop where
  inFrame : t.inFrame = true
  cursor : t.cursor.val = s.cursor.val + bs.length
  fo : t.fo = s.fo
  entry : ∀ k : BufIndex, t.buf.read k =
    if s.cursor.val ≤ k.val ∧ k.val < s.cursor.val + bs.length then bs[k.val - s.cursor.val]?
    else s.buf.read k

theorem State.Collected.nil {s : State} (hf : s.inFrame = true) : s.Collected [] s where
  inFrame := hf
  cursor := rfl
  fo := rfl
  entry k := (if_neg (by simp only [List.length_nil]; omega)).symm

/-- A byte accumulated before `bs` stands before them. -/
theorem State.Collected.cons {s t : State} {b : Byte} {bs : List Byte} {i : BufIndex}
    (hi : i.val = s.cursor.val)
    (h : (feedAccumulate b i s).Collected bs t) : s.Collected (b :: bs) t where
  inFrame := h.inFrame
  cursor := by rw [h.cursor, feedAccumulate_eq, cursorAfter_val, List.length_cons]; omega
  fo := h.fo
  entry k := by
    rw [h.entry k, feedAccumulate_eq, Memory.read_write]
    simp only [cursorAfter_val, List.length_cons, Fin.ext_iff, ← hi]
    by_cases hlow : k.val = i.val
    · simp [hlow]
    · by_cases hin : i.val + 1 ≤ k.val ∧ k.val < i.val + 1 + bs.length
      · rw [if_pos hin, if_pos (by omega), List.getElem?_cons, if_neg (by omega), Nat.sub_sub]
      · rw [if_neg hin, if_neg hlow, if_neg (by omega)]

/-- Up to position 8 every byte is accumulated and none restarts synchronization (40_feed.md R64, R69),
by induction on the bytes. -/
theorem stream_of_payload {s : State} {bs : List Byte} (hf : s.inFrame = true)
    (h2 : 2 ≤ s.cursor.val) (hroom : s.cursor.val + bs.length ≤ 9) :
    ∃ t, Stream s bs (List.replicate bs.length ⟨true, 0, s.fo⟩) t ∧ s.Collected bs t := by
  induction bs generalizing s with
  | nil => exact ⟨s, .nil s, .nil hf⟩
  | cons b bs ih =>
    rw [List.length_cons] at hroom
    obtain ⟨i, hi⟩ : ∃ i : BufIndex, i.val = s.cursor.val := ⟨⟨s.cursor.val, by omega⟩, rfl⟩
    obtain ⟨t, rest, hcollected⟩ := ih (s := feedAccumulate b i s) hf
      (by rw [feedAccumulate_eq, cursorAfter_val]; omega)
      (by rw [feedAccumulate_eq, cursorAfter_val]; omega)
    exact ⟨t, .cons (.accumulate hf hi h2 (by omega)) rest, hcollected.cons hi⟩

/-- Settles O44: a stream of at most seven bytes from position 2 on is accumulated. -/
theorem collectedBytesInOrder : Obligations.CollectedBytesInOrder := by
  unfold Obligations.CollectedBytesInOrder
  intro s bs hf hc hlen
  obtain ⟨t, hstream, hcollected⟩ := stream_of_payload hf (by omega) (by omega : _ + bs.length ≤ 9)
  have hcursor := hcollected.cursor
  have hentry := hcollected.entry
  rw [hc] at hcursor
  rw [hc] at hentry
  exact ⟨t, hstream.runOps_eq, hcollected.inFrame, hcursor, hcollected.fo, hentry⟩

/-- The payload fed from position 2 on is the payload that the checksum check reads. -/
theorem State.Collected.payload_eq {s t : State} {p : Payload} (h : s.Collected p.bytes t)
    (hc : s.cursor.val = 2) : t.payload = p := by
  have byte (k : Fin 7) : t.bufByte (Config.payloadIndex k) = p.bytes[k] := by
    apply State.bufByte_of_read
    rw [h.entry, hc, if_pos ⟨Nat.le_add_right 2 k, Nat.add_lt_add_left k.isLt 2⟩]
    simp only [Config.sumLo, Nat.add_sub_cancel_left]
    exact List.getElem?_eq_getElem k.isLt
  simp only [State.payload, byte]
  rfl

/-! Frames -/

/-- What a correct frame leaves: the block out of frame, its checksum byte in `prev`, its data on `fo`
(40_feed.md R65). -/
structure State.Delivered (p : Payload) (t : State) : Prop where
  inFrame : t.inFrame = false
  prev : t.prev = p.checksum
  fo : t.fo = some (p.frameOut p.checksum)

/-- What is observed of a correct frame: Incomplete, with `fo` as it was, then ValidFrame. -/
def frameReports (n : Nat) (fo : Option FrameOut) (p : Payload) : List Observation :=
  List.replicate n ⟨true, 0, fo⟩ ++ [⟨true, 1, some (p.frameOut p.checksum)⟩]

/-- From position 2 on: seven bytes are accumulated and the eighth is their checksum. -/
theorem stream_of_frame_body {s : State} (p : Payload) (hf : s.inFrame = true)
    (hc : s.cursor.val = 2) :
    ∃ t, Stream s (p.bytes ++ [p.checksum]) (frameReports 7 s.fo p) t ∧ State.Delivered p t := by
  obtain ⟨u, payload, hu⟩ := stream_of_payload (bs := p.bytes) hf (by omega)
    (by rw [hc]; exact Nat.le_refl 9)
  have hpayload : u.payload = p := hu.payload_eq hc
  have completes : Transition u (.feed p.checksum) _ :=
    .valid hu.inFrame (by rw [hu.cursor, hc]; rfl) (by rw [hpayload])
  rw [hpayload] at completes
  exact ⟨_, payload.append (.single completes), rfl, rfl, rfl⟩

/-- Once the `0xFF` has been fed, the `0x55` completes the marker (40_feed.md R63). -/
theorem stream_of_frame_after_mark0 {s : State} (p : Payload) (hf : s.inFrame = false)
    (hp : s.prev = 0xFF) :
    ∃ t, Stream s (0x55 :: (p.bytes ++ [p.checksum])) (frameReports 8 s.fo p) t ∧
      State.Delivered p t := by
  obtain ⟨t, body, ht⟩ := stream_of_frame_body (s := feedMarker 0x55 s) p rfl rfl
  exact ⟨t, .cons (.marker hf hp) body, ht⟩

/-- A correct frame out of frame: its `0xFF` completes no marker, whatever came before it. -/
theorem stream_of_frame {s : State} (p : Payload) (hf : s.inFrame = false) :
    ∃ t, Stream s (frameBytes p p.checksum) (frameReports 9 s.fo p) t ∧ State.Delivered p t := by
  obtain ⟨t, rest, ht⟩ := stream_of_frame_after_mark0 (s := feedSearch 0xFF s) p hf rfl
  exact ⟨t, .cons (.search hf fun ⟨_, hb⟩ => absurd hb (by decide)) rest, ht⟩

/-- Settles O45: the IDLE cycles change no result, and without them the operations are a frame's. -/
theorem correctFrameYieldsOneValidFrame : Obligations.CorrectFrameYieldsOneValidFrame := by
  unfold Obligations.CorrectFrameYieldsOneValidFrame
  intro s p ops hf hops
  obtain ⟨t, frame, -⟩ := stream_of_frame p hf
  rw [← results_filter_idle, hops]
  exact frame.results_eq

/-- Settles O46: the mismatch leaves the block out of frame with `prev` cleared, so the noise after it
is searched and the frame after that is correct. -/
theorem recoveryWithinOneFrame : Obligations.RecoveryWithinOneFrame := by
  unfold Obligations.RecoveryWithinOneFrame
  intro s b noise p hf hc hb hnoise
  have mismatch : Transition s (.feed b) (feedMismatch b s) := .mismatch hf hc hb.symm
  refine ⟨⟨_, mismatch.exec_eq, rfl, rfl⟩, ?results⟩
  case results =>
    obtain ⟨u, searched, hu, hfo⟩ :=
      stream_of_noise (s := feedMismatch b s) rfl (noMarkerPair_zero_cons hnoise)
    obtain ⟨t, frame, -⟩ := stream_of_frame p hu
    refine (Stream.cons mismatch (searched.append frame)).results_eq.trans ?_
    rw [frameReports, hfo, List.replicate_add, ← List.append_assoc]
    rfl

/-- Settles O47: the first frame leaves its checksum `0xFF` in `prev`, which the next byte completes to
a marker. -/
theorem sharedMarkerByte : Obligations.SharedMarkerByte := by
  unfold Obligations.SharedMarkerByte
  intro s p q hf hp
  obtain ⟨t, first, ht⟩ := stream_of_frame p hf
  obtain ⟨u, second, -⟩ := stream_of_frame_after_mark0 q ht.inFrame (ht.prev.trans hp)
  have both := (first.append second).results_eq
  rw [ht.fo, hp] at both
  rw [both, frameReports, frameReports, hp]
  simp only [List.append_assoc, List.cons_append, List.nil_append]

end Sys2Proof.Machine
end

section
/-! PROOFS. How long `fo` is held (70_reset_and_hazards.md R101). -/

namespace Sys2Proof.Machine

/-- `n` more fed bytes complete no frame: out of a frame a marker byte and eight more are needed, in a
frame those from the cursor on. -/
def State.HoldsFoFor (s : State) (n : Nat) : Prop :=
  (s.inFrame = false ∧ n ≤ 8) ∨ (s.inFrame = true ∧ 2 ≤ s.cursor.val ∧ s.cursor.val + n ≤ 9)

theorem State.HoldsFoFor.exists_transition {s : State} {n : Nat} (h : s.HoldsFoFor n) (i : Instr) :
    ∃ t, Transition s i t := by
  obtain row | ⟨-, -, hf, hbroken⟩ := transition_or_broken i s
  · exact row
  · obtain ⟨hout, -⟩ | ⟨-, h2, h9⟩ := h
    · exact absurd (hout.symm.trans hf) (by decide)
    · exact absurd ⟨h2, by omega⟩ hbroken

theorem State.HoldsFoFor.le_eight {s : State} {n : Nat} (h : s.HoldsFoFor n) : n ≤ 8 := by
  obtain ⟨-, h8⟩ | ⟨-, h2, h9⟩ := h <;> omega

theorem State.HoldsFoFor.of_inFrame {s : State} {n : Nat} (h : s.HoldsFoFor n)
    (hf : s.inFrame = true) : 2 ≤ s.cursor.val ∧ s.cursor.val + n ≤ 9 := by
  obtain ⟨hout, -⟩ | ⟨-, h⟩ := h
  · exact absurd (hout.symm.trans hf) (by decide)
  · exact h

/-- An operation other than RESET keeps `fo` and uses up one byte where it feeds one. -/
theorem Transition.holdsFoFor {s t : State} {i : Instr} {n : Nat} (row : Transition s i t)
    (h : s.HoldsFoFor (n + if yieldsResult i then 1 else 0)) (hi : i ≠ .reset) :
    t.fo = s.fo ∧ t.HoldsFoFor n := by
  have h8 := h.le_eight
  cases row with
  | reset => exact absurd rfl hi
  | idle => exact ⟨rfl, h⟩
  | search hf => exact ⟨rfl, .inl ⟨hf, by omega⟩⟩
  | marker => exact ⟨rfl, .inr ⟨rfl, Nat.le_refl 2, by simp [yieldsResult] at h8 ⊢; omega⟩⟩
  | accumulate hf hidx =>
    obtain ⟨h2, h9⟩ := h.of_inFrame hf
    simp only [yieldsResult, if_true] at h9
    exact ⟨rfl, .inr ⟨hf, by rw [cursorAfter_val]; omega, by rw [cursorAfter_val]; omega⟩⟩
  | valid hf hc =>
    obtain ⟨-, h9⟩ := h.of_inFrame hf
    simp only [yieldsResult, if_true] at h9
    omega
  | mismatch => exact ⟨rfl, .inl ⟨rfl, by omega⟩⟩
  | sil | silfeed => exact ⟨rfl, .inl ⟨rfl, by omega⟩⟩

theorem State.HoldsFoFor.runOps_fo {s : State} {ops : List Instr}
    (h : s.HoldsFoFor (ops.countP yieldsResult)) (hreset : .reset ∉ ops) :
    ∃ t, runOps ops s = .next t ∧ t.fo = s.fo := by
  induction ops generalizing s with
  | nil => exact ⟨s, rfl, rfl⟩
  | cons i ops ih =>
    rw [List.countP_cons] at h
    obtain ⟨hi, hops⟩ := List.ne_and_not_mem_of_not_mem_cons hreset
    obtain ⟨u, row⟩ := h.exists_transition i
    obtain ⟨hfo, hu⟩ := row.holdsFoFor h (Ne.symm hi)
    obtain ⟨t, hrun, ht⟩ := ih hu hops
    exact ⟨t, (runOps_cons_of_next row.exec_eq ops).trans hrun, ht.trans hfo⟩

/-- Settles O52: out of a frame eight bytes complete none. -/
theorem frameOutputHeldForEightFeeds : Obligations.FrameOutputHeldForEightFeeds := by
  unfold Obligations.FrameOutputHeldForEightFeeds
  intro s ops hf hreset hcount
  exact State.HoldsFoFor.runOps_fo (.inl ⟨hf, hcount⟩) hreset

end Sys2Proof.Machine
end
